-- ==== Sys2Proof/Word.lean ====
section
/-! DEFINITION. Word.lean: the word types of the block and the plain data its units are made of
(00_scope.md R8, 10_state.md R13, R40, 20_memory.md R60, R72). -/

namespace Sys2Proof

/-- A 32-bit register or unit A address (10_state.md R13, R45). -/
abbrev Word := BitVec 32

/-- A 64-bit unit B virtual address, root descriptor, page-table entry or memory-port address (10_state.md R45). -/
abbrev DWord := BitVec 64

/-- A 56-bit physical address (10_state.md R45). -/
abbrev PAddr := BitVec 56

/-- One byte of the memory port (20_memory.md R60). -/
abbrev Byte := BitVec 8

/-- An address-space id of unit B (10_state.md R40). -/
abbrev Asid := BitVec 16

/-- The size class of a TLB entry (20_memory.md R72). -/
inductive PageSize where
  | invalid
  | kb4
  | mb2
  | gb1
deriving DecidableEq, Repr, Inhabited

/-- The three levels of the walk, by the document's numbers 2 (root), 1 and 0 (20_memory.md R72, 43_tlb_walker.md R155). -/
inductive Level where
  | level2
  | level1
  | level0
deriving DecidableEq, Repr

/-- One entry of the Sv39-style TLB (10_state.md R40). -/
structure TlbEntry where
  pagesize : PageSize
  vpa : DWord
  ppa : PAddr
  asid : Asid
  r : Bool
  w : Bool
  x : Bool
  u : Bool
  g : Bool
  a : Bool
  d : Bool
deriving DecidableEq, Repr, Inhabited

/-- The value every TLB entry has after RESET: invalid, every other field 0 (10_state.md R40). -/
def TlbEntry.reset : TlbEntry :=
  { pagesize := .invalid, vpa := 0, ppa := 0, asid := 0, r := false, w := false, x := false,
    u := false, g := false, a := false, d := false }

/-- Why a RESOLVE faulted (43_tlb_walker.md R160). -/
inductive Reason where
  | unsupportedMode
  | nonCanonicalVa
  | memReadFail
  | pteInvalid
  | pteWNotR
  | pteReserved
  | noLeaf
  | misalignedSuperpage
deriving DecidableEq, Repr

end Sys2Proof
end

