-- ==== Sys2Proof/Config.lean ====
section
/-! DEFINITION. Config.lean: the seven implementation parameters of 00_scope.md R4, and the values the spec leaves
undefined, as opaque constants without a body (93_implementation_defined.md I14, 20_memory.md R72). -/

namespace Sys2Proof

/-- What a superpage leaf with non-zero low frame fields does (00_scope.md R4, `SV39_SUPERPAGE_MISALIGN`). -/
inductive SuperpageMisalign where
  | fault
  | mask
deriving DecidableEq, Repr

/-- The parameters of 00_scope.md R4; their constraints are `Config.wellFormed`. Carried in `State.cfg` and changed by
no operation (log 1). -/
structure Config where
  /-- `MIPS_TLB_ENTRIES`, written N1. -/
  mipsTlbEntries : Nat
  /-- `PRID_VALUE`. -/
  pridValue : Word
  /-- `CONFIG0_RESET`. -/
  config0Reset : Word
  /-- `CONFIG1_RESET`. -/
  config1Reset : Word
  /-- `SV39_TLB_ENTRIES`, written N2. -/
  sv39TlbEntries : Nat
  /-- `SV39_PPN2_BITS`, written P2. -/
  sv39Ppn2Bits : Nat
  /-- `SV39_SUPERPAGE_MISALIGN`. -/
  sv39SuperpageMisalign : SuperpageMisalign
deriving DecidableEq, Repr

/-- The reference configuration of 00_scope.md R4. -/
def Config.reference : Config :=
  { mipsTlbEntries := 16, pridValue := 0x00000000#32, config0Reset := 0x80000083#32,
    config1Reset := 0x1E000000#32, sv39TlbEntries := 4, sv39Ppn2Bits := 9,
    sv39SuperpageMisalign := .fault }

/-- N1 - 1 as a register value: the top of the translation-entry range, and the write mask of `Index` and `Wired`
(10_state.md R15, R16, R21). -/
def Config.topEntry (c : Config) : Word := BitVec.ofNat 32 (c.mipsTlbEntries - 1)

/-- Free value (log 6): `res_value` after a command that does not drive it (93_implementation_defined.md I14). -/
opaque Config.freeResValue : Nat → Word

/-- Free value (log 6): `eret_target` after a command that does not drive it (93_implementation_defined.md I14). -/
opaque Config.freeEretTarget : Nat → Word

/-- Free value (log 6): `res_ok` after a command other than RESOLVE; the spec states none. -/
opaque Config.freeResOk : Nat → Bool

/-- Free value (log 6): `res_entry` after a faulting RESOLVE or another command (30_encoding.md R84, I14). -/
opaque Config.freeResEntry : Nat → TlbEntry

/-- Free value (log 6): `res_pa` after a faulting RESOLVE or another command (30_encoding.md R84, I14). -/
opaque Config.freeResPa : Nat → PAddr

/-- Free value (log 6): `resolve_reason` after a command other than RESOLVE; the spec states none. -/
opaque Config.freeResolveReason : Nat → BitVec 4

/-- Free value (log 12): `PageBytes` of size code 0, which 20_memory.md R72 calls undefined; no rule reads it. -/
opaque Config.pageBytesOfInvalid : DWord

end Sys2Proof
end

