-- ==== Sys2Proof/Syntax.lean ====
section
/-! DEFINITION. Syntax.lean: the commands of the block. One constructor of `Instr` per row of spec/opcode_table.json,
carrying the operand buses that 30_encoding.md R82 lists for it, and the command port's own input signals (R80). -/

namespace Sys2Proof

/-- The 21 registers of the CP0 bank (10_state.md R13). -/
inductive Csr where
  | index
  | random
  | entryLo0
  | entryLo1
  | context
  | pageMask
  | wired
  | badVAddr
  | count
  | entryHi
  | compare
  | status
  | cause
  | epc
  | prid
  | ebase
  | config0
  | config1
  | tagLo
  | tagHi
  | errorEpc
deriving DecidableEq, Repr

/-- One command with its operands (30_encoding.md R82, R83). Every operand type is exactly its bus, so every term is
well formed. -/
inductive Instr where
  | csrReadIndex
  | csrReadRandom
  | csrReadEntryLo0
  | csrReadEntryLo1
  | csrReadContext
  | csrReadPageMask
  | csrReadWired
  | csrReadBadVAddr
  | csrReadCount
  | csrReadEntryHi
  | csrReadCompare
  | csrReadStatus
  | csrReadCause
  | csrReadEpc
  | csrReadPrid
  | csrReadEbase
  | csrReadConfig0
  | csrReadConfig1
  | csrReadTagLo
  | csrReadTagHi
  | csrReadErrorEpc
  | csrWriteIndex (value : Word)
  | csrWriteRandom (value : Word)
  | csrWriteEntryLo0 (value : Word)
  | csrWriteEntryLo1 (value : Word)
  | csrWriteContext (value : Word)
  | csrWritePageMask (value : Word)
  | csrWriteWired (value : Word)
  | csrWriteBadVAddr (value : Word)
  | csrWriteCount (value : Word)
  | csrWriteEntryHi (value : Word)
  | csrWriteCompare (value : Word)
  | csrWriteStatus (value : Word)
  | csrWriteCause (value : Word)
  | csrWriteEpc (value : Word)
  | csrWritePrid (value : Word)
  | csrWriteEbase (value : Word)
  | csrWriteConfig0 (value : Word)
  | csrWriteConfig1 (value : Word)
  | csrWriteTagLo (value : Word)
  | csrWriteTagHi (value : Word)
  | csrWriteErrorEpc (value : Word)
  | preInsn (ext : BitVec 5) (pc : Word) (ds : Bool)
  | raise (exc : BitVec 5) (badva : Word) (pc : Word) (ds : Bool)
  | eret
  | priv
  | trapQuery
  | invalidate (va : DWord) (asid : Asid)
  | resolve (desc : DWord) (va : DWord)
deriving DecidableEq, Repr

/-- The header and the operand buses of the command port (30_encoding.md R80). -/
structure Command where
  /-- `cmd`, the 12-bit header (30_encoding.md R81). -/
  header : BitVec 12
  opValue : Word
  opPc : Word
  opDs : Bool
  opExt : BitVec 5
  opExc : BitVec 5
  opBadva : Word
  opVa : DWord
  opAsid : Asid
  opDesc : DWord
deriving DecidableEq, Repr

/-- A command whose operand buses are all 0: an omitted operand is 0 (30_encoding.md R87). -/
def Command.ofHeader (h : BitVec 12) : Command :=
  { header := h, opValue := 0, opPc := 0, opDs := false, opExt := 0, opExc := 0, opBadva := 0,
    opVa := 0, opAsid := 0, opDesc := 0 }

/-- The CSR_READ of a register. -/
def Csr.readInstr : Csr → Instr
  | .index => .csrReadIndex
  | .random => .csrReadRandom
  | .entryLo0 => .csrReadEntryLo0
  | .entryLo1 => .csrReadEntryLo1
  | .context => .csrReadContext
  | .pageMask => .csrReadPageMask
  | .wired => .csrReadWired
  | .badVAddr => .csrReadBadVAddr
  | .count => .csrReadCount
  | .entryHi => .csrReadEntryHi
  | .compare => .csrReadCompare
  | .status => .csrReadStatus
  | .cause => .csrReadCause
  | .epc => .csrReadEpc
  | .prid => .csrReadPrid
  | .ebase => .csrReadEbase
  | .config0 => .csrReadConfig0
  | .config1 => .csrReadConfig1
  | .tagLo => .csrReadTagLo
  | .tagHi => .csrReadTagHi
  | .errorEpc => .csrReadErrorEpc

/-- The CSR_WRITE of a value to a register. -/
def Csr.writeInstr (value : Word) : Csr → Instr
  | .index => .csrWriteIndex value
  | .random => .csrWriteRandom value
  | .entryLo0 => .csrWriteEntryLo0 value
  | .entryLo1 => .csrWriteEntryLo1 value
  | .context => .csrWriteContext value
  | .pageMask => .csrWritePageMask value
  | .wired => .csrWriteWired value
  | .badVAddr => .csrWriteBadVAddr value
  | .count => .csrWriteCount value
  | .entryHi => .csrWriteEntryHi value
  | .compare => .csrWriteCompare value
  | .status => .csrWriteStatus value
  | .cause => .csrWriteCause value
  | .epc => .csrWriteEpc value
  | .prid => .csrWritePrid value
  | .ebase => .csrWriteEbase value
  | .config0 => .csrWriteConfig0 value
  | .config1 => .csrWriteConfig1 value
  | .tagLo => .csrWriteTagLo value
  | .tagHi => .csrWriteTagHi value
  | .errorEpc => .csrWriteErrorEpc value

end Sys2Proof
end

