-- ==== Sys2Proof/WellFormed.lean ====
section
/-! DEFINITION. WellFormed.lean: what the block accepts. The constraints of 00_scope.md R4 on a configuration, and the
rows of spec/opcode_table.json as masks and patterns, which say which command headers name an operation (30_encoding.md
R81, R82, R86). An `Instr` needs no check: each operand's type is exactly its bus (30_encoding.md R80). -/

namespace Sys2Proof

/-- N1 is a power of two from 2 to 64 (00_scope.md R4). -/
def Config.mipsTlbEntriesOk (c : Config) : Bool :=
  [2, 4, 8, 16, 32, 64].contains c.mipsTlbEntries

/-- `CONFIG0_RESET`: bit 31 is 1, bits 30:10 and 6:3 are 0 (00_scope.md R4). -/
def Config.config0ResetOk (c : Config) : Bool :=
  c.config0Reset &&& 0xFFFFFC78#32 == 0x80000000#32

/-- `CONFIG1_RESET`: bits 30:25 are N1 - 1, bit 31 and bits 6:0 are 0 (00_scope.md R4). -/
def Config.config1ResetOk (c : Config) : Bool :=
  c.config1Reset &&& 0xFE00007F#32 == c.topEntry <<< 25

/-- N2 is at least 1 (00_scope.md R4). -/
def Config.sv39TlbEntriesOk (c : Config) : Bool := decide (1 ≤ c.sv39TlbEntries)

/-- `SV39_PPN2_BITS` is from 9 to 26 (00_scope.md R4). -/
def Config.sv39Ppn2BitsOk (c : Config) : Bool :=
  decide (9 ≤ c.sv39Ppn2Bits) && decide (c.sv39Ppn2Bits ≤ 26)

/-- The configuration meets every constraint of 00_scope.md R4. -/
def Config.wellFormed (c : Config) : Bool :=
  c.mipsTlbEntriesOk && c.config0ResetOk && c.config1ResetOk && c.sv39TlbEntriesOk && c.sv39Ppn2BitsOk

/-- One row of spec/opcode_table.json: a header belongs to the row when its bits under `mask` are `pattern`. -/
structure OpcodeRow where
  mnemonic : String
  mask : BitVec 12
  pattern : BitVec 12
deriving DecidableEq, Repr

/-- The CSR_READ rows (30_encoding.md R82, R87). -/
def readRows : List OpcodeRow :=
  [⟨"CSR_READ.Index", 0xFFF#12, 0x100#12⟩,
   ⟨"CSR_READ.Random", 0xFFF#12, 0x108#12⟩,
   ⟨"CSR_READ.EntryLo0", 0xFFF#12, 0x110#12⟩,
   ⟨"CSR_READ.EntryLo1", 0xFFF#12, 0x118#12⟩,
   ⟨"CSR_READ.Context", 0xFFF#12, 0x120#12⟩,
   ⟨"CSR_READ.PageMask", 0xFFF#12, 0x128#12⟩,
   ⟨"CSR_READ.Wired", 0xFFF#12, 0x130#12⟩,
   ⟨"CSR_READ.BadVAddr", 0xFFF#12, 0x140#12⟩,
   ⟨"CSR_READ.Count", 0xFFF#12, 0x148#12⟩,
   ⟨"CSR_READ.EntryHi", 0xFFF#12, 0x150#12⟩,
   ⟨"CSR_READ.Compare", 0xFFF#12, 0x158#12⟩,
   ⟨"CSR_READ.Status", 0xFFF#12, 0x160#12⟩,
   ⟨"CSR_READ.Cause", 0xFFF#12, 0x168#12⟩,
   ⟨"CSR_READ.EPC", 0xFFF#12, 0x170#12⟩,
   ⟨"CSR_READ.PRId", 0xFFF#12, 0x178#12⟩,
   ⟨"CSR_READ.EBase", 0xFFF#12, 0x179#12⟩,
   ⟨"CSR_READ.Config0", 0xFFF#12, 0x180#12⟩,
   ⟨"CSR_READ.Config1", 0xFFF#12, 0x181#12⟩,
   ⟨"CSR_READ.TagLo", 0xFFF#12, 0x1E0#12⟩,
   ⟨"CSR_READ.TagHi", 0xFFF#12, 0x1E8#12⟩,
   ⟨"CSR_READ.ErrorEPC", 0xFFF#12, 0x1F0#12⟩]

/-- The CSR_WRITE rows (30_encoding.md R82, R87). -/
def writeRows : List OpcodeRow :=
  [⟨"CSR_WRITE.Index", 0xFFF#12, 0x200#12⟩,
   ⟨"CSR_WRITE.Random", 0xFFF#12, 0x208#12⟩,
   ⟨"CSR_WRITE.EntryLo0", 0xFFF#12, 0x210#12⟩,
   ⟨"CSR_WRITE.EntryLo1", 0xFFF#12, 0x218#12⟩,
   ⟨"CSR_WRITE.Context", 0xFFF#12, 0x220#12⟩,
   ⟨"CSR_WRITE.PageMask", 0xFFF#12, 0x228#12⟩,
   ⟨"CSR_WRITE.Wired", 0xFFF#12, 0x230#12⟩,
   ⟨"CSR_WRITE.BadVAddr", 0xFFF#12, 0x240#12⟩,
   ⟨"CSR_WRITE.Count", 0xFFF#12, 0x248#12⟩,
   ⟨"CSR_WRITE.EntryHi", 0xFFF#12, 0x250#12⟩,
   ⟨"CSR_WRITE.Compare", 0xFFF#12, 0x258#12⟩,
   ⟨"CSR_WRITE.Status", 0xFFF#12, 0x260#12⟩,
   ⟨"CSR_WRITE.Cause", 0xFFF#12, 0x268#12⟩,
   ⟨"CSR_WRITE.EPC", 0xFFF#12, 0x270#12⟩,
   ⟨"CSR_WRITE.PRId", 0xFFF#12, 0x278#12⟩,
   ⟨"CSR_WRITE.EBase", 0xFFF#12, 0x279#12⟩,
   ⟨"CSR_WRITE.Config0", 0xFFF#12, 0x280#12⟩,
   ⟨"CSR_WRITE.Config1", 0xFFF#12, 0x281#12⟩,
   ⟨"CSR_WRITE.TagLo", 0xFFF#12, 0x2E0#12⟩,
   ⟨"CSR_WRITE.TagHi", 0xFFF#12, 0x2E8#12⟩,
   ⟨"CSR_WRITE.ErrorEPC", 0xFFF#12, 0x2F0#12⟩]

/-- The rows of the seven other operations, whose header bits 7:0 are ignored (30_encoding.md R81, R82). -/
def operationRows : List OpcodeRow :=
  [⟨"PRE_INSN", 0xF00#12, 0x300#12⟩,
   ⟨"RAISE", 0xF00#12, 0x400#12⟩,
   ⟨"ERET", 0xF00#12, 0x500#12⟩,
   ⟨"PRIV", 0xF00#12, 0x600#12⟩,
   ⟨"TRAP_QUERY", 0xF00#12, 0x700#12⟩,
   ⟨"INVALIDATE", 0xF00#12, 0x800#12⟩,
   ⟨"RESOLVE", 0xF00#12, 0x900#12⟩]

/-- spec/opcode_table.json. -/
def opcodeTable : List OpcodeRow := readRows ++ writeRows ++ operationRows

/-- The header belongs to a row. -/
def OpcodeRow.matchesHeader (row : OpcodeRow) (h : BitVec 12) : Bool := h &&& row.mask == row.pattern

/-- The header names an operation of the table; every other header is a class 2 violation (30_encoding.md R86). -/
def Command.wellFormed (c : Command) : Bool := opcodeTable.any fun row => row.matchesHeader c.header

/-- The row of spec/opcode_table.json an instruction is. -/
def Instr.row : Instr → OpcodeRow
  | .csrReadIndex => ⟨"CSR_READ.Index", 0xFFF#12, 0x100#12⟩
  | .csrReadRandom => ⟨"CSR_READ.Random", 0xFFF#12, 0x108#12⟩
  | .csrReadEntryLo0 => ⟨"CSR_READ.EntryLo0", 0xFFF#12, 0x110#12⟩
  | .csrReadEntryLo1 => ⟨"CSR_READ.EntryLo1", 0xFFF#12, 0x118#12⟩
  | .csrReadContext => ⟨"CSR_READ.Context", 0xFFF#12, 0x120#12⟩
  | .csrReadPageMask => ⟨"CSR_READ.PageMask", 0xFFF#12, 0x128#12⟩
  | .csrReadWired => ⟨"CSR_READ.Wired", 0xFFF#12, 0x130#12⟩
  | .csrReadBadVAddr => ⟨"CSR_READ.BadVAddr", 0xFFF#12, 0x140#12⟩
  | .csrReadCount => ⟨"CSR_READ.Count", 0xFFF#12, 0x148#12⟩
  | .csrReadEntryHi => ⟨"CSR_READ.EntryHi", 0xFFF#12, 0x150#12⟩
  | .csrReadCompare => ⟨"CSR_READ.Compare", 0xFFF#12, 0x158#12⟩
  | .csrReadStatus => ⟨"CSR_READ.Status", 0xFFF#12, 0x160#12⟩
  | .csrReadCause => ⟨"CSR_READ.Cause", 0xFFF#12, 0x168#12⟩
  | .csrReadEpc => ⟨"CSR_READ.EPC", 0xFFF#12, 0x170#12⟩
  | .csrReadPrid => ⟨"CSR_READ.PRId", 0xFFF#12, 0x178#12⟩
  | .csrReadEbase => ⟨"CSR_READ.EBase", 0xFFF#12, 0x179#12⟩
  | .csrReadConfig0 => ⟨"CSR_READ.Config0", 0xFFF#12, 0x180#12⟩
  | .csrReadConfig1 => ⟨"CSR_READ.Config1", 0xFFF#12, 0x181#12⟩
  | .csrReadTagLo => ⟨"CSR_READ.TagLo", 0xFFF#12, 0x1E0#12⟩
  | .csrReadTagHi => ⟨"CSR_READ.TagHi", 0xFFF#12, 0x1E8#12⟩
  | .csrReadErrorEpc => ⟨"CSR_READ.ErrorEPC", 0xFFF#12, 0x1F0#12⟩
  | .csrWriteIndex _ => ⟨"CSR_WRITE.Index", 0xFFF#12, 0x200#12⟩
  | .csrWriteRandom _ => ⟨"CSR_WRITE.Random", 0xFFF#12, 0x208#12⟩
  | .csrWriteEntryLo0 _ => ⟨"CSR_WRITE.EntryLo0", 0xFFF#12, 0x210#12⟩
  | .csrWriteEntryLo1 _ => ⟨"CSR_WRITE.EntryLo1", 0xFFF#12, 0x218#12⟩
  | .csrWriteContext _ => ⟨"CSR_WRITE.Context", 0xFFF#12, 0x220#12⟩
  | .csrWritePageMask _ => ⟨"CSR_WRITE.PageMask", 0xFFF#12, 0x228#12⟩
  | .csrWriteWired _ => ⟨"CSR_WRITE.Wired", 0xFFF#12, 0x230#12⟩
  | .csrWriteBadVAddr _ => ⟨"CSR_WRITE.BadVAddr", 0xFFF#12, 0x240#12⟩
  | .csrWriteCount _ => ⟨"CSR_WRITE.Count", 0xFFF#12, 0x248#12⟩
  | .csrWriteEntryHi _ => ⟨"CSR_WRITE.EntryHi", 0xFFF#12, 0x250#12⟩
  | .csrWriteCompare _ => ⟨"CSR_WRITE.Compare", 0xFFF#12, 0x258#12⟩
  | .csrWriteStatus _ => ⟨"CSR_WRITE.Status", 0xFFF#12, 0x260#12⟩
  | .csrWriteCause _ => ⟨"CSR_WRITE.Cause", 0xFFF#12, 0x268#12⟩
  | .csrWriteEpc _ => ⟨"CSR_WRITE.EPC", 0xFFF#12, 0x270#12⟩
  | .csrWritePrid _ => ⟨"CSR_WRITE.PRId", 0xFFF#12, 0x278#12⟩
  | .csrWriteEbase _ => ⟨"CSR_WRITE.EBase", 0xFFF#12, 0x279#12⟩
  | .csrWriteConfig0 _ => ⟨"CSR_WRITE.Config0", 0xFFF#12, 0x280#12⟩
  | .csrWriteConfig1 _ => ⟨"CSR_WRITE.Config1", 0xFFF#12, 0x281#12⟩
  | .csrWriteTagLo _ => ⟨"CSR_WRITE.TagLo", 0xFFF#12, 0x2E0#12⟩
  | .csrWriteTagHi _ => ⟨"CSR_WRITE.TagHi", 0xFFF#12, 0x2E8#12⟩
  | .csrWriteErrorEpc _ => ⟨"CSR_WRITE.ErrorEPC", 0xFFF#12, 0x2F0#12⟩
  | .preInsn _ _ _ => ⟨"PRE_INSN", 0xF00#12, 0x300#12⟩
  | .raise _ _ _ _ => ⟨"RAISE", 0xF00#12, 0x400#12⟩
  | .eret => ⟨"ERET", 0xF00#12, 0x500#12⟩
  | .priv => ⟨"PRIV", 0xF00#12, 0x600#12⟩
  | .trapQuery => ⟨"TRAP_QUERY", 0xF00#12, 0x700#12⟩
  | .invalidate _ _ => ⟨"INVALIDATE", 0xF00#12, 0x800#12⟩
  | .resolve _ _ => ⟨"RESOLVE", 0xF00#12, 0x900#12⟩

end Sys2Proof
end

