-- ==== Sys2Proof/Decode.lean ====
section
/-! DEFINITION. Decode.lean: the decoder of a command (30_encoding.md R81, R82, R83, R86), total on every header and
rejecting by name, and after it the encoder (R87). The numbers of the registers stand once, in `Csr.address`. -/

namespace Sys2Proof

/-- The 21 registers in the order of 10_state.md R13. -/
def Csr.all : List Csr :=
  [.index, .random, .entryLo0, .entryLo1, .context, .pageMask, .wired, .badVAddr,
   .count, .entryHi, .compare, .status, .cause, .epc, .prid, .ebase,
   .config0, .config1, .tagLo, .tagHi, .errorEpc]

/-- The low byte of a register's header, `reg << 3 | sel` (10_state.md R13, 30_encoding.md R87). -/
def Csr.address : Csr → BitVec 8
  | .index => 0#5 ++ 0#3
  | .random => 1#5 ++ 0#3
  | .entryLo0 => 2#5 ++ 0#3
  | .entryLo1 => 3#5 ++ 0#3
  | .context => 4#5 ++ 0#3
  | .pageMask => 5#5 ++ 0#3
  | .wired => 6#5 ++ 0#3
  | .badVAddr => 8#5 ++ 0#3
  | .count => 9#5 ++ 0#3
  | .entryHi => 10#5 ++ 0#3
  | .compare => 11#5 ++ 0#3
  | .status => 12#5 ++ 0#3
  | .cause => 13#5 ++ 0#3
  | .epc => 14#5 ++ 0#3
  | .prid => 15#5 ++ 0#3
  | .ebase => 15#5 ++ 1#3
  | .config0 => 16#5 ++ 0#3
  | .config1 => 16#5 ++ 1#3
  | .tagLo => 28#5 ++ 0#3
  | .tagHi => 29#5 ++ 0#3
  | .errorEpc => 30#5 ++ 0#3

/-- Why a header names no operation (30_encoding.md R86 (c), (d)). -/
inductive DecodeError where
  /-- A CSR access to a pair that is not one of the 21. -/
  | unimplementedRegister (reg : BitVec 5) (sel : BitVec 3)
  /-- An op code of 0x0 or 0xA to 0xF. -/
  | undefinedOperation (op : BitVec 4)
deriving DecidableEq, Repr

/-- `op`, header bits 11:8 (30_encoding.md R81). -/
def headerOp (h : BitVec 12) : BitVec 4 := h.extractLsb' 8 4

/-- `reg`, header bits 7:3 (30_encoding.md R81). -/
def headerReg (h : BitVec 12) : BitVec 5 := h.extractLsb' 3 5

/-- `sel`, header bits 2:0 (30_encoding.md R81). -/
def headerSel (h : BitVec 12) : BitVec 3 := h.extractLsb' 0 3

/-- The register at a (register number, selector) pair, if there is one (10_state.md R13). -/
def csrAt (reg : BitVec 5) (sel : BitVec 3) : Option Csr :=
  Csr.all.find? fun r => r.address == reg ++ sel

/-- The CSR access of a header, by `access`, or the rejection of its pair (30_encoding.md R86 (b), (c)). -/
def decodeCsr (access : Csr → Instr) (h : BitVec 12) : Except DecodeError Instr :=
  match csrAt (headerReg h) (headerSel h) with
  | some r => .ok (access r)
  | none => .error (.unimplementedRegister (headerReg h) (headerSel h))

/-- The decoder: each of the 4096 headers has one outcome; an operand bus that the operation does not list is ignored
(30_encoding.md R82, R83, R86). -/
def decode (c : Command) : Except DecodeError Instr :=
  if headerOp c.header == 0x1#4 then decodeCsr Csr.readInstr c.header
  else if headerOp c.header == 0x2#4 then decodeCsr (Csr.writeInstr c.opValue) c.header
  else if headerOp c.header == 0x3#4 then .ok (.preInsn c.opExt c.opPc c.opDs)
  else if headerOp c.header == 0x4#4 then .ok (.raise c.opExc c.opBadva c.opPc c.opDs)
  else if headerOp c.header == 0x5#4 then .ok .eret
  else if headerOp c.header == 0x6#4 then .ok .priv
  else if headerOp c.header == 0x7#4 then .ok .trapQuery
  else if headerOp c.header == 0x8#4 then .ok (.invalidate c.opVa c.opAsid)
  else if headerOp c.header == 0x9#4 then .ok (.resolve c.opDesc c.opVa)
  else .error (.undefinedOperation (headerOp c.header))

/-- The header of a CSR access: op code, register number and selector (30_encoding.md R81). -/
def csrHeader (op : BitVec 4) (r : Csr) : BitVec 12 := op ++ r.address

/-- The command of an instruction: its header of 30_encoding.md R87 (ignored bits 0), its operands on their buses, every
other bus 0. -/
def encode : Instr → Command
  | .csrReadIndex => .ofHeader (csrHeader 0x1#4 .index)
  | .csrReadRandom => .ofHeader (csrHeader 0x1#4 .random)
  | .csrReadEntryLo0 => .ofHeader (csrHeader 0x1#4 .entryLo0)
  | .csrReadEntryLo1 => .ofHeader (csrHeader 0x1#4 .entryLo1)
  | .csrReadContext => .ofHeader (csrHeader 0x1#4 .context)
  | .csrReadPageMask => .ofHeader (csrHeader 0x1#4 .pageMask)
  | .csrReadWired => .ofHeader (csrHeader 0x1#4 .wired)
  | .csrReadBadVAddr => .ofHeader (csrHeader 0x1#4 .badVAddr)
  | .csrReadCount => .ofHeader (csrHeader 0x1#4 .count)
  | .csrReadEntryHi => .ofHeader (csrHeader 0x1#4 .entryHi)
  | .csrReadCompare => .ofHeader (csrHeader 0x1#4 .compare)
  | .csrReadStatus => .ofHeader (csrHeader 0x1#4 .status)
  | .csrReadCause => .ofHeader (csrHeader 0x1#4 .cause)
  | .csrReadEpc => .ofHeader (csrHeader 0x1#4 .epc)
  | .csrReadPrid => .ofHeader (csrHeader 0x1#4 .prid)
  | .csrReadEbase => .ofHeader (csrHeader 0x1#4 .ebase)
  | .csrReadConfig0 => .ofHeader (csrHeader 0x1#4 .config0)
  | .csrReadConfig1 => .ofHeader (csrHeader 0x1#4 .config1)
  | .csrReadTagLo => .ofHeader (csrHeader 0x1#4 .tagLo)
  | .csrReadTagHi => .ofHeader (csrHeader 0x1#4 .tagHi)
  | .csrReadErrorEpc => .ofHeader (csrHeader 0x1#4 .errorEpc)
  | .csrWriteIndex value => { Command.ofHeader (csrHeader 0x2#4 .index) with opValue := value }
  | .csrWriteRandom value => { Command.ofHeader (csrHeader 0x2#4 .random) with opValue := value }
  | .csrWriteEntryLo0 value => { Command.ofHeader (csrHeader 0x2#4 .entryLo0) with opValue := value }
  | .csrWriteEntryLo1 value => { Command.ofHeader (csrHeader 0x2#4 .entryLo1) with opValue := value }
  | .csrWriteContext value => { Command.ofHeader (csrHeader 0x2#4 .context) with opValue := value }
  | .csrWritePageMask value => { Command.ofHeader (csrHeader 0x2#4 .pageMask) with opValue := value }
  | .csrWriteWired value => { Command.ofHeader (csrHeader 0x2#4 .wired) with opValue := value }
  | .csrWriteBadVAddr value => { Command.ofHeader (csrHeader 0x2#4 .badVAddr) with opValue := value }
  | .csrWriteCount value => { Command.ofHeader (csrHeader 0x2#4 .count) with opValue := value }
  | .csrWriteEntryHi value => { Command.ofHeader (csrHeader 0x2#4 .entryHi) with opValue := value }
  | .csrWriteCompare value => { Command.ofHeader (csrHeader 0x2#4 .compare) with opValue := value }
  | .csrWriteStatus value => { Command.ofHeader (csrHeader 0x2#4 .status) with opValue := value }
  | .csrWriteCause value => { Command.ofHeader (csrHeader 0x2#4 .cause) with opValue := value }
  | .csrWriteEpc value => { Command.ofHeader (csrHeader 0x2#4 .epc) with opValue := value }
  | .csrWritePrid value => { Command.ofHeader (csrHeader 0x2#4 .prid) with opValue := value }
  | .csrWriteEbase value => { Command.ofHeader (csrHeader 0x2#4 .ebase) with opValue := value }
  | .csrWriteConfig0 value => { Command.ofHeader (csrHeader 0x2#4 .config0) with opValue := value }
  | .csrWriteConfig1 value => { Command.ofHeader (csrHeader 0x2#4 .config1) with opValue := value }
  | .csrWriteTagLo value => { Command.ofHeader (csrHeader 0x2#4 .tagLo) with opValue := value }
  | .csrWriteTagHi value => { Command.ofHeader (csrHeader 0x2#4 .tagHi) with opValue := value }
  | .csrWriteErrorEpc value => { Command.ofHeader (csrHeader 0x2#4 .errorEpc) with opValue := value }
  | .preInsn ext pc ds => { Command.ofHeader 0x300#12 with opExt := ext, opPc := pc, opDs := ds }
  | .raise exc badva pc ds =>
    { Command.ofHeader 0x400#12 with opExc := exc, opBadva := badva, opPc := pc, opDs := ds }
  | .eret => .ofHeader 0x500#12
  | .priv => .ofHeader 0x600#12
  | .trapQuery => .ofHeader 0x700#12
  | .invalidate va asid => { Command.ofHeader 0x800#12 with opVa := va, opAsid := asid }
  | .resolve desc va => { Command.ofHeader 0x900#12 with opDesc := desc, opVa := va }

/-- The command that a table word stands for: the header is the low 12 bits of the word, which has `nbits` bits, and every
operand bus is 0 (log 3). -/
def commandOfWord (nbits w : Nat) : Command := .ofHeader (BitVec.ofNat 12 (w % 2 ^ nbits))

/-- The instruction the decoder reads from a table word. -/
def decodeTableWord (nbits w : Nat) : Option Instr :=
  match decode (commandOfWord nbits w) with
  | .ok i => some i
  | .error _ => none

end Sys2Proof
end

