-- ==== Sys2Proof/Machine/State.lean ====
section
/-! DEFINITION. Machine/State.lean: every piece of state the spec gives the block (10_state.md), the results its outputs
hold (30_encoding.md R80), and what stands outside it that a step reads: the memory behind the port (20_memory.md R60), the
port samples to come, the configuration (00_scope.md R4). Plain data. -/

namespace Sys2Proof.Machine

/-- What the memory port answers: one cell per byte address that answers, addresses strictly rising; an address that is not
listed answers `Fail` (20_memory.md R60; log 9). -/
abbrev Memory := List Host.Cell

/-- The register bank of unit A (10_state.md R13). -/
structure Cp0 where
  /-- `Index` (10_state.md R15). -/
  index : Word
  /-- `Random` (10_state.md R16). -/
  random : Word
  /-- `EntryLo0` (10_state.md R17). -/
  entryLo0 : Word
  /-- `EntryLo1` (10_state.md R18). -/
  entryLo1 : Word
  /-- `Context` (10_state.md R19). -/
  context : Word
  /-- `PageMask` (10_state.md R20). -/
  pageMask : Word
  /-- `Wired` (10_state.md R21). -/
  wired : Word
  /-- `BadVAddr` (10_state.md R22). -/
  badVAddr : Word
  /-- `Count` (10_state.md R23). -/
  count : Word
  /-- `EntryHi` (10_state.md R24). -/
  entryHi : Word
  /-- `Compare` (10_state.md R25). -/
  compare : Word
  /-- `Status` (10_state.md R26). -/
  status : Word
  /-- `Cause` (10_state.md R27). -/
  cause : Word
  /-- `EPC` (10_state.md R28). -/
  epc : Word
  /-- `PRId` (10_state.md R29). -/
  prid : Word
  /-- `EBase` (10_state.md R30). -/
  ebase : Word
  /-- `Config0` (10_state.md R31). -/
  config0 : Word
  /-- `Config1` (10_state.md R32). -/
  config1 : Word
  /-- `TagLo` (10_state.md R33). -/
  tagLo : Word
  /-- `TagHi` (10_state.md R34). -/
  tagHi : Word
  /-- `ErrorEPC` (10_state.md R35). -/
  errorEpc : Word
deriving DecidableEq, Repr

/-- The outputs that hold a command's results until the next command (30_encoding.md R80, R84). -/
structure Outputs where
  resValue : Word
  eretTarget : Word
  resOk : Bool
  resEntry : TlbEntry
  resPa : PAddr
  resolveReason : BitVec 4
  diagBevChanged : Bool
  /-- The addresses of the command's `MemRead`s of 8 bytes, in order: the model's own record of the memory port (log 11). -/
  memReads : List DWord
deriving DecidableEq, Repr

/-- One sample of the command port (30_encoding.md R80). -/
structure PortSample where
  rst : Bool
  cmdValid : Bool
  cmd : Command
deriving DecidableEq, Repr

/-- What the outside does next (log 2, 10). -/
inductive Input where
  /-- The pipeline drives the command port. -/
  | port (p : PortSample)
  /-- A store on the memory port is completed by another client of it, between two commands (20_memory.md R73). -/
  | memStore (addr : DWord) (bytes : List Byte)
  /-- The platform no longer answers at `n` addresses from `addr` on (20_memory.md R60). -/
  | memFail (addr : DWord) (n : Nat)
deriving DecidableEq, Repr

/-- The machine. -/
structure State where
  /-- The implementation parameters (00_scope.md R4), changed by no step. -/
  cfg : Config
  /-- The register bank (10_state.md R13). -/
  cp0 : Cp0
  /-- `trap_pending` (10_state.md R37). -/
  trapPending : Bool
  /-- `trap_target` (10_state.md R37). -/
  trapTarget : Word
  /-- `fatal` (10_state.md R38). -/
  fatal : Bool
  /-- The entries `tlb[0]` to `tlb[N2-1]` (10_state.md R40). -/
  tlb : List TlbEntry
  /-- `rr`, the round-robin counter (10_state.md R42). -/
  rr : Nat
  /-- The results on the outputs (30_encoding.md R80). -/
  out : Outputs
  /-- The memory behind the port, outside the block (20_memory.md R60). -/
  mem : Memory
  /-- What the outside does next; the model's own field (log 2). -/
  inputs : List Input
  /-- Numbers the free values; the model's own field (log 8). -/
  fresh : Nat
deriving DecidableEq, Repr

/-- Why the machine stops. Each is a class 2 violation of the caller (00_scope.md R6, R7), which the spec tells a model to
treat as a fault (93_implementation_defined.md I2, I3, I13). The state in it is the one the hardware is left in, `fatal` = 1,
from which only RESET leads on. -/
inductive Fault where
  /-- Raised by `step` for a CSR_READ or CSR_WRITE header whose pair is none of the 21 (30_encoding.md R86 (c)). Safe. -/
  | unimplementedRegister (reg : BitVec 5) (sel : BitVec 3) (left : State)
  /-- Raised by `step` for an op code of 0x0 or 0xA to 0xF (30_encoding.md R86 (d)). Safe. -/
  | undefinedOperation (op : BitVec 4) (left : State)
  /-- Raised by `step` for any command presented while `fatal` = 1 (10_state.md R38, I13). Safe. -/
  | commandAfterFatal (left : State)
deriving DecidableEq, Repr

/-- Why the model has no answer. -/
inductive Refusal where
  /-- Raised by an arm of `exec` whose instruction has no meaning yet; no arm does. Safe. -/
  | notModelled (mnemonic : String)
  /-- Raised by `step` in a state whose configuration breaks a constraint of 00_scope.md R4
  (93_implementation_defined.md I7: refuse). Safe. -/
  | configurationOutsideR4
deriving DecidableEq, Repr

/-- The register bank after RESET under a configuration (70_reset_and_hazards.md R210). -/
def Cp0.resetFor (c : Config) : Cp0 :=
  { index := 0x00000000#32,
    random := c.topEntry,
    entryLo0 := 0x00000000#32,
    entryLo1 := 0x00000000#32,
    context := 0x00000000#32,
    pageMask := 0x00000000#32,
    wired := 0x00000000#32,
    badVAddr := 0x00000000#32,
    count := 0x00000000#32,
    entryHi := 0x00000000#32,
    compare := 0x00000000#32,
    status := 0x00400000#32,
    cause := 0x00000000#32,
    epc := 0x00000000#32,
    prid := c.pridValue,
    ebase := 0x80000000#32,
    config0 := c.config0Reset,
    config1 := c.config1Reset,
    tagLo := 0x00000000#32,
    tagHi := 0x00000000#32,
    errorEpc := 0x00000000#32 }

/-- The outputs after RESET: `resolve_reason` and `diag_bev_changed` 0 (70_reset_and_hazards.md R210); the others 0 by
DESIGN CHOICE (log 7). -/
def Outputs.reset : Outputs :=
  { resValue := 0, eretTarget := 0, resOk := false, resEntry := TlbEntry.reset, resPa := 0,
    resolveReason := 0, diagBevChanged := false, memReads := [] }

/-- The machine after RESET under a configuration (70_reset_and_hazards.md R210), with no memory behind the port, no input
to come and free values numbered from 0 (log 2, 8, 9). -/
def State.resetFor (c : Config) : State :=
  { cfg := c, cp0 := Cp0.resetFor c, trapPending := false, trapTarget := 0, fatal := false,
    tlb := List.replicate c.sv39TlbEntries TlbEntry.reset, rr := 0, out := Outputs.reset,
    mem := [], inputs := [], fresh := 0 }

/-- The machine right after RESET in the reference configuration (00_scope.md R4, 70_reset_and_hazards.md R210; log 1). -/
def State.reset : State := State.resetFor Config.reference

end Sys2Proof.Machine
end

