-- ==== Sys2Proof/Machine/Flags.lean ====
section
/-! DEFINITION. Machine/Flags.lean: the one-bit and multi-bit fields of `Status`, `Cause` and `Context` (10_state.md R19,
R26, R27), and the two predicates read from them: interrupt delivery (42_exception_ops.md R131) and privilege (R138). -/

namespace Sys2Proof.Machine

/-- `w` with the field that starts at bit `lo` replaced by `v`; every other bit kept. -/
def insertField (w : Word) (lo : Nat) {len : Nat} (v : BitVec len) : Word :=
  (w &&& ~~~((BitVec.allOnes len).setWidth 32 <<< lo)) ||| (v.setWidth 32 <<< lo)

/-- `w` with bit `n` replaced by `b`. -/
def insertBit (w : Word) (n : Nat) (b : Bool) : Word := insertField w n (BitVec.ofBool b)

/-- `Status.IE` (10_state.md R26). -/
def statusIE (status : Word) : Bool := status.getLsbD 0

/-- `Status.EXL` (10_state.md R26). -/
def statusEXL (status : Word) : Bool := status.getLsbD 1

/-- `Status.ERL` (10_state.md R26). -/
def statusERL (status : Word) : Bool := status.getLsbD 2

/-- `Status.KSU` (10_state.md R26). -/
def statusKSU (status : Word) : BitVec 2 := status.extractLsb' 3 2

/-- `Status.IM` (10_state.md R26). -/
def statusIM (status : Word) : BitVec 8 := status.extractLsb' 8 8

/-- `Status.BEV` (10_state.md R26). -/
def statusBEV (status : Word) : Bool := status.getLsbD 22

/-- `Status.EXL <- b`. -/
def setStatusEXL (status : Word) (b : Bool) : Word := insertBit status 1 b

/-- `Status.ERL <- b`. -/
def setStatusERL (status : Word) (b : Bool) : Word := insertBit status 2 b

/-- `Cause.ExcCode` (10_state.md R27). -/
def causeExcCode (cause : Word) : BitVec 5 := cause.extractLsb' 2 5

/-- `Cause.IP` (10_state.md R27, 60_exceptions.md R182). -/
def causeIP (cause : Word) : BitVec 8 := cause.extractLsb' 8 8

/-- `Cause.IV` (10_state.md R27). -/
def causeIV (cause : Word) : Bool := cause.getLsbD 23

/-- `Cause.BD` (10_state.md R27). -/
def causeBD (cause : Word) : Bool := cause.getLsbD 31

/-- `Cause.ExcCode <- exc`. -/
def setCauseExcCode (cause : Word) (exc : BitVec 5) : Word := insertField cause 2 exc

/-- `Cause.IP[6:2] <- ext`: the five external lines (60_exceptions.md R182). -/
def setCauseLines (cause : Word) (ext : BitVec 5) : Word := insertField cause 10 ext

/-- `Cause.IP[7] <- b`: the timer-pending bit (60_exceptions.md R182). -/
def setCauseTimer (cause : Word) (b : Bool) : Word := insertBit cause 15 b

/-- `Cause.BD <- b`. -/
def setCauseBD (cause : Word) (b : Bool) : Word := insertBit cause 31 b

/-- `Context.BadVPN2 <- v` (10_state.md R19). -/
def setContextBadVPN2 (context : Word) (v : BitVec 19) : Word := insertField context 4 v

/-- `IntDeliverable()` (42_exception_ops.md R131). -/
def intDeliverable (status cause : Word) : Bool :=
  statusIE status && !statusEXL status && !statusERL status &&
    (causeIP cause &&& statusIM status) != 0#8

/-- The output `priv`: 0 kernel, 1 user (42_exception_ops.md R138). -/
def privLevel (status : Word) : BitVec 1 :=
  if statusEXL status || statusERL status || statusKSU status == 0#2 then 0#1 else 1#1

end Sys2Proof.Machine
end

