-- ==== Sys2Proof/Machine/Operands.lean ====
section
/-! DEFINITION. Machine/Operands.lean: the formats the block takes apart (30_encoding.md R85): the unit B virtual address,
the root descriptor, the page-table entry, the page sizes (20_memory.md R62, R68 to R72, R79), the faulting address. -/

namespace Sys2Proof.Machine

/-- `VPN[level]` of a virtual address (20_memory.md R68). -/
def vpn (va : DWord) : Level → BitVec 9
  | .level2 => va.extractLsb' 30 9
  | .level1 => va.extractLsb' 21 9
  | .level0 => va.extractLsb' 12 9

/-- `Canonical(va)`: bits 63:39 all equal bit 38 (20_memory.md R69). -/
def canonical (va : DWord) : Bool :=
  va.extractLsb' 39 25 == (if va.getLsbD 38 then BitVec.allOnes 25 else 0#25)

/-- `MODE` of a root descriptor (20_memory.md R70). -/
def descMode (desc : DWord) : BitVec 4 := desc.extractLsb' 60 4

/-- `ASID` of a root descriptor (20_memory.md R70). -/
def descAsid (desc : DWord) : Asid := desc.extractLsb' 44 16

/-- `PPN` of a root descriptor (20_memory.md R70). -/
def descPpn (desc : DWord) : BitVec 44 := desc.extractLsb' 0 44

/-- The physical address of a frame: its number shifted left by 12 (20_memory.md R70, R71). -/
def frameAddr (ppn : BitVec 44) : PAddr := ppn.setWidth 56 <<< 12

/-- `pte.V` (20_memory.md R71). -/
def pteV (pte : DWord) : Bool := pte.getLsbD 0

/-- `pte.R` (20_memory.md R71). -/
def pteR (pte : DWord) : Bool := pte.getLsbD 1

/-- `pte.W` (20_memory.md R71). -/
def pteW (pte : DWord) : Bool := pte.getLsbD 2

/-- `pte.X` (20_memory.md R71). -/
def pteX (pte : DWord) : Bool := pte.getLsbD 3

/-- `pte.U` (20_memory.md R71). -/
def pteU (pte : DWord) : Bool := pte.getLsbD 4

/-- `pte.G` (20_memory.md R71). -/
def pteG (pte : DWord) : Bool := pte.getLsbD 5

/-- `pte.A` (20_memory.md R71). -/
def pteA (pte : DWord) : Bool := pte.getLsbD 6

/-- `pte.D` (20_memory.md R71). -/
def pteD (pte : DWord) : Bool := pte.getLsbD 7

/-- `PPNof(pte)`: bits 27+P2:10, 18 + P2 bits, in the 44 bits of the widest configuration (20_memory.md R71). -/
def ptePpn (c : Config) (pte : DWord) : BitVec 44 :=
  (pte.extractLsb' 10 (18 + c.sv39Ppn2Bits)).setWidth 44

/-- `pte.RES`: bits 63:28+P2, as a number (20_memory.md R71). -/
def pteRes (c : Config) (pte : DWord) : DWord := pte >>> (28 + c.sv39Ppn2Bits)

/-- The entry ends the walk: R = 1 or X = 1 (43_tlb_walker.md R155). -/
def pteLeaf (pte : DWord) : Bool := pteR pte || pteX pte

/-- `LE64(b)` for 8 bytes: the byte at the lowest address is bits 7:0 (20_memory.md R62). -/
def le64 : List Byte → DWord
  | [] => 0
  | b :: bs => b.setWidth 64 ||| (le64 bs <<< 8)

/-- The 2-bit code of a size class (20_memory.md R72). -/
def sizeCode : PageSize → BitVec 2
  | .invalid => 0
  | .kb4 => 1
  | .mb2 => 2
  | .gb1 => 3

/-- `PageBytes(s)` (20_memory.md R72; log 12 for the invalid code). -/
def pageBytes : PageSize → DWord
  | .invalid => Config.pageBytesOfInvalid
  | .kb4 => 0x1000#64
  | .mb2 => 0x200000#64
  | .gb1 => 0x40000000#64

/-- The size class of a leaf found at a level (20_memory.md R72). -/
def leafSize : Level → PageSize
  | .level2 => .gb1
  | .level1 => .mb2
  | .level0 => .kb4

/-- `va & ~(PageBytes(s) - 1)`: the first byte of the page (43_tlb_walker.md R150, R158). -/
def pageBase (s : PageSize) (va : DWord) : DWord := va &&& ~~~(pageBytes s - 1)

/-- `PhysAddr(e, va)` (20_memory.md R79). -/
def physAddr (e : TlbEntry) (va : DWord) : PAddr :=
  e.ppa ||| (va &&& (pageBytes e.pagesize - 1)).setWidth 56

/-- `badva[31:13]`, the page number `Context.BadVPN2` takes (42_exception_ops.md R135). -/
def badVpn2 (badva : Word) : BitVec 19 := badva.extractLsb' 13 19

/-- The diagnostic code of a fault reason (43_tlb_walker.md R160). -/
def reasonCode : Reason → BitVec 4
  | .unsupportedMode => 1
  | .nonCanonicalVa => 2
  | .memReadFail => 3
  | .pteInvalid => 4
  | .pteWNotR => 5
  | .pteReserved => 6
  | .noLeaf => 7
  | .misalignedSuperpage => 8

end Sys2Proof.Machine
end

