-- ==== Sys2Proof/Machine/Ops.lean ====
section
/-! DEFINITION. Machine/Ops.lean: the named operations the meanings share. The memory port (20_memory.md R60 to R65), the
outputs (30_encoding.md R80, R84), the register bank (41_csr_access.md R100, R101), taking an exception and returning from
one (42_exception_ops.md R132 to R136), the TLB and the walker (43_tlb_walker.md R150 to R160). -/

namespace Sys2Proof.Machine

/-! ## The memory port -/

/-- The byte an address answers with, if it answers: an address that is not listed does not (20_memory.md R60; log 9). -/
def readByte (m : Memory) (addr : DWord) : Option Byte := m.lookup addr.toNat

/-- `MemRead(addr, n)`: the `n` bytes from `addr` on, or `Fail` when one of them does not answer (20_memory.md R60; log 19). -/
def memRead (m : Memory) (addr : DWord) : Nat → Option (List Byte)
  | 0 => some []
  | n + 1 =>
    match readByte m addr, memRead m (addr + 1) n with
    | some b, some bs => some (b :: bs)
    | _, _ => none

/-- The memory with the byte at key `k` set, the keys kept strictly rising. -/
def insertCell (k : Nat) (b : Byte) : Memory → Memory
  | [] => [(k, b)]
  | (j, c) :: m =>
    if k < j then (k, b) :: (j, c) :: m
    else if k = j then (k, b) :: m
    else (j, c) :: insertCell k b m

/-- The memory with the byte at key `k` gone. -/
def removeCell (k : Nat) (m : Memory) : Memory := m.filter fun cell => cell.1 != k

/-- The memory after a store of consecutive bytes by another client of the port (20_memory.md R60, R73); addresses count
modulo 2^64 (00_scope.md R8). -/
def storeBytes (m : Memory) (addr : DWord) : List Byte → Memory
  | [] => m
  | b :: bs => storeBytes (insertCell addr.toNat b m) (addr + 1) bs

/-- The memory after `n` consecutive addresses have ceased to answer (log 10). -/
def forgetBytes (m : Memory) (addr : DWord) : Nat → Memory
  | 0 => m
  | n + 1 => forgetBytes (removeCell addr.toNat m) (addr + 1) n

/-- The keys are strictly rising, all at least `lo`, and all below 2^64. -/
def risingFrom : Nat → Memory → Bool
  | _, [] => true
  | lo, (k, _) :: m => decide (lo ≤ k) && decide (k < 2 ^ 64) && risingFrom (k + 1) m

/-- The canonical form of memory: strictly rising addresses of the 64-bit space (log 9). -/
def Memory.wf (m : Memory) : Bool := risingFrom 0 m

/-! ## Outputs -/

/-- The outputs of a command that drives no result: `diag_bev_changed` is 0 after every command but a `Status` write
(41_csr_access.md R113; log 17), no memory read, and every other result bus holds a free value (93_implementation_defined.md I14;
log 6). -/
def undriven (n : Nat) : Outputs :=
  { resValue := Config.freeResValue n, eretTarget := Config.freeEretTarget n, resOk := Config.freeResOk n,
    resEntry := Config.freeResEntry n, resPa := Config.freeResPa n,
    resolveReason := Config.freeResolveReason n, diagBevChanged := false, memReads := [] }

/-- A command completes: its results stand on the outputs, and the next free values are fresh ones. -/
def respond (o : Outputs) (s : State) : State := { s with out := o, fresh := s.fresh + 1 }

/-- A command that drives no result completes. -/
def retire (s : State) : State := respond (undriven s.fresh) s

/-- The continuous output `priv` (30_encoding.md R80, 42_exception_ops.md R138). -/
def privPin (s : State) : BitVec 1 := privLevel s.cp0.status

/-- The continuous output `trap_pending` (30_encoding.md R80). -/
def trapPendingPin (s : State) : Bool := s.trapPending

/-- The continuous output `trap_target` (30_encoding.md R80). -/
def trapTargetPin (s : State) : Word := s.trapTarget

/-- The continuous output `fatal` (30_encoding.md R80). -/
def fatalPin (s : State) : Bool := s.fatal

/-! ## The register bank -/

/-- `cp0[reg, sel]` by name (10_state.md R13). -/
def getCsr (b : Cp0) : Csr → Word
  | .index => b.index
  | .random => b.random
  | .entryLo0 => b.entryLo0
  | .entryLo1 => b.entryLo1
  | .context => b.context
  | .pageMask => b.pageMask
  | .wired => b.wired
  | .badVAddr => b.badVAddr
  | .count => b.count
  | .entryHi => b.entryHi
  | .compare => b.compare
  | .status => b.status
  | .cause => b.cause
  | .epc => b.epc
  | .prid => b.prid
  | .ebase => b.ebase
  | .config0 => b.config0
  | .config1 => b.config1
  | .tagLo => b.tagLo
  | .tagHi => b.tagHi
  | .errorEpc => b.errorEpc

/-- `cp0[reg, sel] <- v` by name (10_state.md R13). -/
def setCsr (b : Cp0) (v : Word) : Csr → Cp0
  | .index => { b with index := v }
  | .random => { b with random := v }
  | .entryLo0 => { b with entryLo0 := v }
  | .entryLo1 => { b with entryLo1 := v }
  | .context => { b with context := v }
  | .pageMask => { b with pageMask := v }
  | .wired => { b with wired := v }
  | .badVAddr => { b with badVAddr := v }
  | .count => { b with count := v }
  | .entryHi => { b with entryHi := v }
  | .compare => { b with compare := v }
  | .status => { b with status := v }
  | .cause => { b with cause := v }
  | .epc => { b with epc := v }
  | .prid => { b with prid := v }
  | .ebase => { b with ebase := v }
  | .config0 => { b with config0 := v }
  | .config1 => { b with config1 := v }
  | .tagLo => { b with tagLo := v }
  | .tagHi => { b with tagHi := v }
  | .errorEpc => { b with errorEpc := v }

/-- The write mask of a register (10_state.md R15 to R35, 41_csr_access.md R102 to R122). -/
def writeMask (c : Config) : Csr → Word
  | .index => c.topEntry
  | .random => 0x00000000#32
  | .entryLo0 => 0x03FFFFFF#32
  | .entryLo1 => 0x03FFFFFF#32
  | .context => 0xFF800000#32
  | .pageMask => 0x1FFFE000#32
  | .wired => c.topEntry
  | .badVAddr => 0x00000000#32
  | .count => 0xFFFFFFFF#32
  | .entryHi => 0xFFFFE0FF#32
  | .compare => 0xFFFFFFFF#32
  | .status => 0x0040FF1F#32
  | .cause => 0x00800300#32
  | .epc => 0xFFFFFFFF#32
  | .prid => 0x00000000#32
  | .ebase => 0x3FFFF000#32
  | .config0 => 0x00000007#32
  | .config1 => 0x00000000#32
  | .tagLo => 0xFFFFFFFF#32
  | .tagHi => 0xFFFFFFFF#32
  | .errorEpc => 0xFFFFFFFF#32

/-- A masked write: only the bits of the mask change (41_csr_access.md R101). -/
def maskedWrite (mask old value : Word) : Word := (old &&& ~~~mask) ||| (value &&& mask)

/-- CSR_READ of a register: its 32 bits on `res_value`, no state changed (41_csr_access.md R100). -/
def readCsr (r : Csr) (s : State) : State :=
  respond { undriven s.fresh with resValue := getCsr s.cp0 r } s

/-- The general form of CSR_WRITE, before the coupled effect of the register, if it has one (41_csr_access.md R101). -/
def writeCsr (r : Csr) (value : Word) (s : State) : State :=
  retire { s with cp0 := setCsr s.cp0 (maskedWrite (writeMask s.cfg r) (getCsr s.cp0 r) value) r }

/-! ## Traps -/

/-- `BOOT_VECTOR` (20_memory.md R66). -/
def bootVector : Word := 0xBFC00200#32

/-- `OFF_REFILL` (20_memory.md R66). -/
def offRefill : Word := 0x000#32

/-- `OFF_INT` (20_memory.md R66). -/
def offInt : Word := 0x200#32

/-- `OFF_GENERAL` (20_memory.md R66). -/
def offGeneral : Word := 0x180#32

/-- The exception code `Int` (60_exceptions.md R180). -/
def excInt : BitVec 5 := 0

/-- The exception code `Mod` (60_exceptions.md R180). -/
def excMod : BitVec 5 := 1

/-- The exception code `TLBL` (60_exceptions.md R180). -/
def excTlbl : BitVec 5 := 2

/-- The exception code `TLBS` (60_exceptions.md R180). -/
def excTlbs : BitVec 5 := 3

/-- The exception code `AdEL` (60_exceptions.md R180). -/
def excAdel : BitVec 5 := 4

/-- The exception code `AdES` (60_exceptions.md R180). -/
def excAdes : BitVec 5 := 5

/-- `TrapBase()` (42_exception_ops.md R133). -/
def trapBase (b : Cp0) : Word := if statusBEV b.status then bootVector else b.ebase

/-- `TrapOffset(exc)`, used when `Status.EXL` was 0 (42_exception_ops.md R133). -/
def trapOffset (b : Cp0) (exc : BitVec 5) : Word :=
  if exc == excTlbl || exc == excTlbs then offRefill
  else if exc == excInt && causeIV b.cause && !statusBEV b.status then offInt
  else offGeneral

/-- The kinds that record the faulting address (42_exception_ops.md R135). -/
def recordsAddress (exc : BitVec 5) : Bool :=
  exc == excMod || exc == excTlbl || exc == excTlbs || exc == excAdel || exc == excAdes

/-- `SaveReturn(pc, ds)`: `EPC` and `Cause.BD` (42_exception_ops.md R134). -/
def saveReturn (pc : Word) (ds : Bool) (b : Cp0) : Cp0 :=
  { b with epc := if ds then pc - 4 else pc, cause := setCauseBD b.cause ds }

/-- `RecordFaultAddress(exc, badva)`: `BadVAddr` and `Context.BadVPN2` (42_exception_ops.md R135). -/
def recordFaultAddress (exc : BitVec 5) (badva : Word) (b : Cp0) : Cp0 :=
  if recordsAddress exc then
    { b with badVAddr := badva, context := setContextBadVPN2 b.context (badVpn2 badva) }
  else b

/-- TAKING AN EXCEPTION: the whole of RAISE, for the pipeline's RAISE and for PRE_INSN's interrupt alike
(42_exception_ops.md R132, R140). -/
def takeException (exc : BitVec 5) (badva pc : Word) (ds : Bool) (s : State) : State :=
  let saved := if statusEXL s.cp0.status then s.cp0 else saveReturn pc ds s.cp0
  let coded := { saved with cause := setCauseExcCode saved.cause exc, status := setStatusEXL saved.status true }
  { s with
    cp0 := recordFaultAddress exc badva coded
    trapTarget := trapBase s.cp0 + if statusEXL s.cp0.status then offGeneral else trapOffset s.cp0 exc
    trapPending := true }

/-- RETURNING FROM AN EXCEPTION: the return target, and `Status` with exactly one of `ERL`, `EXL` cleared
(42_exception_ops.md R136). -/
def returnFromException (b : Cp0) : Word × Cp0 :=
  if statusERL b.status then (b.errorEpc, { b with status := setStatusERL b.status false })
  else (b.epc, { b with status := setStatusEXL b.status false })

/-- `RandomNext(r, w)` (42_exception_ops.md R139). -/
def randomNext (c : Config) (r w : Word) : Word := if r ≤ w then c.topEntry else r - 1

/-- The bank after the counting and latching steps of PRE_INSN, before its interrupt test (42_exception_ops.md R130). -/
def tick (c : Config) (ext : BitVec 5) (b : Cp0) : Cp0 :=
  let latched := setCauseLines b.cause ext
  { b with
    count := b.count + 1
    random := randomNext c b.random b.wired
    cause := if b.count + 1 == b.compare then setCauseTimer latched true else latched }

/-! ## The translation cache -/

/-- `Covers(e, va)` (43_tlb_walker.md R150). -/
def covers (e : TlbEntry) (va : DWord) : Bool :=
  e.pagesize != .invalid && pageBase e.pagesize va == e.vpa

/-- `Match(e, va, asid)` (43_tlb_walker.md R151). -/
def entryMatches (e : TlbEntry) (va : DWord) (asid : Asid) : Bool :=
  covers e va && (e.asid == asid || e.g)

/-- The entry at `Lookup(va, asid)`: the matching one of lowest index (43_tlb_walker.md R151). -/
def lookupEntry (tlb : List TlbEntry) (va : DWord) (asid : Asid) : Option TlbEntry :=
  tlb.find? fun e => entryMatches e va asid

/-- The entries INVALIDATE selects (43_tlb_walker.md R152). -/
def selectedBy (va : DWord) (asid : Asid) (e : TlbEntry) : Bool :=
  e.pagesize != .invalid && (asid == 0 || e.asid == asid || e.g) && (va == 0 || covers e va)

/-- One entry after INVALIDATE: a selected one has its `pagesize` cleared and nothing else (43_tlb_walker.md R152,
10_state.md R41; log 20). -/
def invalidateEntry (va : DWord) (asid : Asid) (e : TlbEntry) : TlbEntry :=
  if selectedBy va asid e then { e with pagesize := .invalid } else e

/-! ## The page-table walker -/

/-- The address `ReadPte` drives: `a + 8 * idx` in 56 bits, zero-extended (43_tlb_walker.md R156). -/
def pteAddr (a : PAddr) (idx : BitVec 9) : DWord := (a + 8#56 * idx.setWidth 56).setWidth 64

/-- `ReadPte(a, idx)`: one `MemRead` of 8 bytes, little-endian (43_tlb_walker.md R156, 20_memory.md R62). -/
def readPte (m : Memory) (a : PAddr) (idx : BitVec 9) : Option DWord := (memRead m (pteAddr a idx) 8).map le64

/-- `CheckPte(pte)`: the first test that fails, if any (43_tlb_walker.md R157). -/
def checkPte (c : Config) (pte : DWord) : Option Reason :=
  if !pteV pte then some .pteInvalid
  else if !pteR pte && pteW pte then some .pteWNotR
  else if pteRes c pte != 0 then some .pteReserved
  else none

/-- How a walk ends. -/
inductive WalkEnd where
  | leaf (pte : DWord) (level : Level)
  | fault (reason : Reason)
deriving DecidableEq, Repr

/-- A walk: the addresses it read, in order, and how it ended. -/
structure WalkResult where
  reads : List DWord
  ending : WalkEnd
deriving DecidableEq, Repr

/-- The walk of the levels still to visit, from the table at `a` (43_tlb_walker.md R155). -/
def walkLevels (c : Config) (m : Memory) (va : DWord) : List Level → PAddr → WalkResult
  | [], _ => { reads := [], ending := .fault .noLeaf }
  | level :: rest, a =>
    let addr := pteAddr a (vpn va level)
    match readPte m a (vpn va level) with
    | none => { reads := [addr], ending := .fault .memReadFail }
    | some pte =>
      match checkPte c pte with
      | some reason => { reads := [addr], ending := .fault reason }
      | none =>
        if pteLeaf pte then { reads := [addr], ending := .leaf pte level }
        else
          let below := walkLevels c m va rest (frameAddr (ptePpn c pte))
          { below with reads := addr :: below.reads }

/-- `Walk(root, va)`: at most three levels, from coarsest to finest (43_tlb_walker.md R155). -/
def walk (c : Config) (m : Memory) (root : BitVec 44) (va : DWord) : WalkResult :=
  walkLevels c m va [.level2, .level1, .level0] (frameAddr root)

/-- `low`: the frame bits of a leaf below its page size (43_tlb_walker.md R158). -/
def lowFrame (c : Config) (pte : DWord) (s : PageSize) : DWord :=
  (ptePpn c pte).setWidth 64 &&& ((pageBytes s >>> 12) - 1)

/-- The entry a leaf produces once its low frame bits are accepted (43_tlb_walker.md R158). -/
def leafEntry (c : Config) (pte : DWord) (s : PageSize) (va : DWord) (asid : Asid) : TlbEntry :=
  { pagesize := s
    vpa := pageBase s va
    ppa := frameAddr (ptePpn c pte) &&& ~~~((pageBytes s - 1).setWidth 56)
    asid := asid
    r := pteR pte, w := pteW pte, x := pteX pte, u := pteU pte, g := pteG pte, a := pteA pte, d := pteD pte }

/-- `MakeEntry(pte, level, va, asid)`: `none` is the fault MISALIGNED_SUPERPAGE (43_tlb_walker.md R158). -/
def makeEntry (c : Config) (pte : DWord) (level : Level) (va : DWord) (asid : Asid) : Option TlbEntry :=
  if lowFrame c pte (leafSize level) != 0 && c.sv39SuperpageMisalign == .fault then none
  else some (leafEntry c pte (leafSize level) va asid)

/-! ## Translation -/

/-- RESOLVE returns a fault: the TLB and `rr` as they were, the reads made so far made (43_tlb_walker.md R160, R163). -/
def resolveFault (reason : Reason) (reads : List DWord) (s : State) : State :=
  respond { undriven s.fresh with resOk := false, resolveReason := reasonCode reason, memReads := reads } s

/-- RESOLVE returns an entry (43_tlb_walker.md R160, 30_encoding.md R84). -/
def resolveOk (e : TlbEntry) (va : DWord) (reads : List DWord) (s : State) : State :=
  respond { undriven s.fresh with
    resOk := true, resEntry := e, resPa := physAddr e va, resolveReason := 0, memReads := reads } s

/-- The fill: the entry goes to slot `rr`, which then advances modulo N2 (43_tlb_walker.md R159). -/
def fillTlb (e : TlbEntry) (s : State) : State :=
  { s with tlb := s.tlb.set s.rr e, rr := (s.rr + 1) % s.cfg.sv39TlbEntries }

/-- RESOLVE on a miss: the walk, then the fill and the entry, or a fault (43_tlb_walker.md R153). -/
def resolveMiss (root : BitVec 44) (asid : Asid) (va : DWord) (s : State) : State :=
  let w := walk s.cfg s.mem root va
  match w.ending with
  | .fault reason => resolveFault reason w.reads s
  | .leaf pte level =>
    match makeEntry s.cfg pte level va asid with
    | none => resolveFault .misalignedSuperpage w.reads s
    | some e => resolveOk e va w.reads (fillTlb e s)

/-- RESOLVE: the two tests, the probe, the miss (43_tlb_walker.md R153, R154, R164). -/
def translateVa (desc va : DWord) (s : State) : State :=
  if descMode desc != 8#4 then resolveFault .unsupportedMode [] s
  else if !canonical va then resolveFault .nonCanonicalVa [] s
  else
    match lookupEntry s.tlb va (descAsid desc) with
    | some e => resolveOk e va [] s
    | none => resolveMiss (descPpn desc) (descAsid desc) va s

end Sys2Proof.Machine
end

