-- ==== Sys2Proof/Machine/CsrRead.lean ====
section
/-! DEFINITION. Machine/CsrRead.lean: the meanings of the 21 CSR_READ commands (41_csr_access.md R100), one line each over
`readCsr`. -/

namespace Sys2Proof.Machine

/-- CSR_READ `Index` (41_csr_access.md R100). -/
def execCsrReadIndex (s : State) : Host.Outcome State Fault Refusal := .next (readCsr .index s)

/-- CSR_READ `Random` (41_csr_access.md R100). -/
def execCsrReadRandom (s : State) : Host.Outcome State Fault Refusal := .next (readCsr .random s)

/-- CSR_READ `EntryLo0` (41_csr_access.md R100). -/
def execCsrReadEntryLo0 (s : State) : Host.Outcome State Fault Refusal := .next (readCsr .entryLo0 s)

/-- CSR_READ `EntryLo1` (41_csr_access.md R100). -/
def execCsrReadEntryLo1 (s : State) : Host.Outcome State Fault Refusal := .next (readCsr .entryLo1 s)

/-- CSR_READ `Context` (41_csr_access.md R100). -/
def execCsrReadContext (s : State) : Host.Outcome State Fault Refusal := .next (readCsr .context s)

/-- CSR_READ `PageMask` (41_csr_access.md R100). -/
def execCsrReadPageMask (s : State) : Host.Outcome State Fault Refusal := .next (readCsr .pageMask s)

/-- CSR_READ `Wired` (41_csr_access.md R100). -/
def execCsrReadWired (s : State) : Host.Outcome State Fault Refusal := .next (readCsr .wired s)

/-- CSR_READ `BadVAddr` (41_csr_access.md R100). -/
def execCsrReadBadVAddr (s : State) : Host.Outcome State Fault Refusal := .next (readCsr .badVAddr s)

/-- CSR_READ `Count` (41_csr_access.md R100). -/
def execCsrReadCount (s : State) : Host.Outcome State Fault Refusal := .next (readCsr .count s)

/-- CSR_READ `EntryHi` (41_csr_access.md R100). -/
def execCsrReadEntryHi (s : State) : Host.Outcome State Fault Refusal := .next (readCsr .entryHi s)

/-- CSR_READ `Compare` (41_csr_access.md R100). -/
def execCsrReadCompare (s : State) : Host.Outcome State Fault Refusal := .next (readCsr .compare s)

/-- CSR_READ `Status` (41_csr_access.md R100). -/
def execCsrReadStatus (s : State) : Host.Outcome State Fault Refusal := .next (readCsr .status s)

/-- CSR_READ `Cause` (41_csr_access.md R100). -/
def execCsrReadCause (s : State) : Host.Outcome State Fault Refusal := .next (readCsr .cause s)

/-- CSR_READ `EPC` (41_csr_access.md R100). -/
def execCsrReadEpc (s : State) : Host.Outcome State Fault Refusal := .next (readCsr .epc s)

/-- CSR_READ `PRId` (41_csr_access.md R100). -/
def execCsrReadPrid (s : State) : Host.Outcome State Fault Refusal := .next (readCsr .prid s)

/-- CSR_READ `EBase` (41_csr_access.md R100). -/
def execCsrReadEbase (s : State) : Host.Outcome State Fault Refusal := .next (readCsr .ebase s)

/-- CSR_READ `Config0` (41_csr_access.md R100). -/
def execCsrReadConfig0 (s : State) : Host.Outcome State Fault Refusal := .next (readCsr .config0 s)

/-- CSR_READ `Config1` (41_csr_access.md R100). -/
def execCsrReadConfig1 (s : State) : Host.Outcome State Fault Refusal := .next (readCsr .config1 s)

/-- CSR_READ `TagLo` (41_csr_access.md R100). -/
def execCsrReadTagLo (s : State) : Host.Outcome State Fault Refusal := .next (readCsr .tagLo s)

/-- CSR_READ `TagHi` (41_csr_access.md R100). -/
def execCsrReadTagHi (s : State) : Host.Outcome State Fault Refusal := .next (readCsr .tagHi s)

/-- CSR_READ `ErrorEPC` (41_csr_access.md R100). -/
def execCsrReadErrorEpc (s : State) : Host.Outcome State Fault Refusal := .next (readCsr .errorEpc s)

end Sys2Proof.Machine
end

