-- ==== Sys2Proof/Machine/CsrWrite.lean ====
section
/-! DEFINITION. Machine/CsrWrite.lean: the meanings of the 21 CSR_WRITE commands (41_csr_access.md R101 to R122), each the
masked write `writeCsr`, and for `Wired`, `Compare` and `Status` the coupled effect. -/

namespace Sys2Proof.Machine

/-- CSR_WRITE `Index` (41_csr_access.md R102). -/
def execCsrWriteIndex (value : Word) (s : State) : Host.Outcome State Fault Refusal :=
  .next (writeCsr .index value s)

/-- CSR_WRITE `Random` (41_csr_access.md R103). -/
def execCsrWriteRandom (value : Word) (s : State) : Host.Outcome State Fault Refusal :=
  .next (writeCsr .random value s)

/-- CSR_WRITE `EntryLo0` (41_csr_access.md R104). -/
def execCsrWriteEntryLo0 (value : Word) (s : State) : Host.Outcome State Fault Refusal :=
  .next (writeCsr .entryLo0 value s)

/-- CSR_WRITE `EntryLo1` (41_csr_access.md R105). -/
def execCsrWriteEntryLo1 (value : Word) (s : State) : Host.Outcome State Fault Refusal :=
  .next (writeCsr .entryLo1 value s)

/-- CSR_WRITE `Context` (41_csr_access.md R106). -/
def execCsrWriteContext (value : Word) (s : State) : Host.Outcome State Fault Refusal :=
  .next (writeCsr .context value s)

/-- CSR_WRITE `PageMask` (41_csr_access.md R107). -/
def execCsrWritePageMask (value : Word) (s : State) : Host.Outcome State Fault Refusal :=
  .next (writeCsr .pageMask value s)

/-- CSR_WRITE `Wired`: every write also sends `Random` to the top of the range (41_csr_access.md R108). -/
def execCsrWriteWired (value : Word) (s : State) : Host.Outcome State Fault Refusal :=
  let t := writeCsr .wired value s
  .next { t with cp0 := { t.cp0 with random := s.cfg.topEntry } }

/-- CSR_WRITE `BadVAddr` (41_csr_access.md R109). -/
def execCsrWriteBadVAddr (value : Word) (s : State) : Host.Outcome State Fault Refusal :=
  .next (writeCsr .badVAddr value s)

/-- CSR_WRITE `Count` (41_csr_access.md R110). -/
def execCsrWriteCount (value : Word) (s : State) : Host.Outcome State Fault Refusal :=
  .next (writeCsr .count value s)

/-- CSR_WRITE `EntryHi` (41_csr_access.md R111). -/
def execCsrWriteEntryHi (value : Word) (s : State) : Host.Outcome State Fault Refusal :=
  .next (writeCsr .entryHi value s)

/-- CSR_WRITE `Compare`: every write also clears `Cause.IP[7]` (41_csr_access.md R112). -/
def execCsrWriteCompare (value : Word) (s : State) : Host.Outcome State Fault Refusal :=
  let t := writeCsr .compare value s
  .next { t with cp0 := { t.cp0 with cause := setCauseTimer t.cp0.cause false } }

/-- CSR_WRITE `Status`: `diag_bev_changed` says whether `BEV` changed (41_csr_access.md R113). -/
def execCsrWriteStatus (value : Word) (s : State) : Host.Outcome State Fault Refusal :=
  let t := writeCsr .status value s
  .next { t with out := { t.out with diagBevChanged := statusBEV s.cp0.status != statusBEV t.cp0.status } }

/-- CSR_WRITE `Cause` (41_csr_access.md R114). -/
def execCsrWriteCause (value : Word) (s : State) : Host.Outcome State Fault Refusal :=
  .next (writeCsr .cause value s)

/-- CSR_WRITE `EPC` (41_csr_access.md R115). -/
def execCsrWriteEpc (value : Word) (s : State) : Host.Outcome State Fault Refusal :=
  .next (writeCsr .epc value s)

/-- CSR_WRITE `PRId` (41_csr_access.md R116). -/
def execCsrWritePrid (value : Word) (s : State) : Host.Outcome State Fault Refusal :=
  .next (writeCsr .prid value s)

/-- CSR_WRITE `EBase` (41_csr_access.md R117). -/
def execCsrWriteEbase (value : Word) (s : State) : Host.Outcome State Fault Refusal :=
  .next (writeCsr .ebase value s)

/-- CSR_WRITE `Config0` (41_csr_access.md R118). -/
def execCsrWriteConfig0 (value : Word) (s : State) : Host.Outcome State Fault Refusal :=
  .next (writeCsr .config0 value s)

/-- CSR_WRITE `Config1` (41_csr_access.md R119). -/
def execCsrWriteConfig1 (value : Word) (s : State) : Host.Outcome State Fault Refusal :=
  .next (writeCsr .config1 value s)

/-- CSR_WRITE `TagLo` (41_csr_access.md R120). -/
def execCsrWriteTagLo (value : Word) (s : State) : Host.Outcome State Fault Refusal :=
  .next (writeCsr .tagLo value s)

/-- CSR_WRITE `TagHi` (41_csr_access.md R121). -/
def execCsrWriteTagHi (value : Word) (s : State) : Host.Outcome State Fault Refusal :=
  .next (writeCsr .tagHi value s)

/-- CSR_WRITE `ErrorEPC` (41_csr_access.md R122). -/
def execCsrWriteErrorEpc (value : Word) (s : State) : Host.Outcome State Fault Refusal :=
  .next (writeCsr .errorEpc value s)

end Sys2Proof.Machine
end

