-- ==== Sys2Proof/Machine/Exception.lean ====
section
/-! DEFINITION. Machine/Exception.lean: the meanings of the controller's commands PRE_INSN, RAISE, ERET, PRIV and TRAP_QUERY
(42_exception_ops.md R130 to R140). -/

namespace Sys2Proof.Machine

/-- PRE_INSN: `trap_pending` cleared, the counters advanced, the lines latched, the timer compared, and then, if an
interrupt is deliverable, the `Int` trap taken inside the same step (42_exception_ops.md R130, R131). -/
def execPreInsn (ext : BitVec 5) (pc : Word) (ds : Bool) (s : State) : Host.Outcome State Fault Refusal :=
  let t := retire { s with trapPending := false, cp0 := tick s.cfg ext s.cp0 }
  .next (if intDeliverable t.cp0.status t.cp0.cause then takeException excInt 0 pc ds t else t)

/-- RAISE (42_exception_ops.md R132). -/
def execRaise (exc : BitVec 5) (badva pc : Word) (ds : Bool) (s : State) : Host.Outcome State Fault Refusal :=
  .next (takeException exc badva pc ds (retire s))

/-- ERET: the return target on `eret_target`, one of `ERL`, `EXL` cleared (42_exception_ops.md R136). -/
def execEret (s : State) : Host.Outcome State Fault Refusal :=
  .next (respond { undriven s.fresh with eretTarget := (returnFromException s.cp0).1 }
    { s with cp0 := (returnFromException s.cp0).2 })

/-- PRIV: no state changes; the result is the continuous output `privPin` (42_exception_ops.md R138, 30_encoding.md R82). -/
def execPriv (s : State) : Host.Outcome State Fault Refusal := .next (retire s)

/-- TRAP_QUERY: no state changes; the results are the continuous outputs `trapPendingPin` and `trapTargetPin`
(42_exception_ops.md R137, 30_encoding.md R82). -/
def execTrapQuery (s : State) : Host.Outcome State Fault Refusal := .next (retire s)

end Sys2Proof.Machine
end

