-- ==== Sys2Proof/Machine/Translation.lean ====
section
/-! DEFINITION. Machine/Translation.lean: the meanings of unit B's commands INVALIDATE and RESOLVE (43_tlb_walker.md R150 to
R165). -/

namespace Sys2Proof.Machine

/-- INVALIDATE: the `pagesize` of every selected entry is cleared (43_tlb_walker.md R152). -/
def execInvalidate (va : DWord) (asid : Asid) (s : State) : Host.Outcome State Fault Refusal :=
  .next (retire { s with tlb := s.tlb.map (invalidateEntry va asid) })

/-- RESOLVE (43_tlb_walker.md R153). -/
def execResolve (desc va : DWord) (s : State) : Host.Outcome State Fault Refusal := .next (translateVa desc va s)

end Sys2Proof.Machine
end

