-- ==== Sys2Proof/Machine/Dispatch.lean ====
section
/-! DEFINITION. Machine/Dispatch.lean: one arm per constructor of `Instr`, each one call of its meaning. -/

namespace Sys2Proof.Machine

def exec (i : Instr) (s : State) : Host.Outcome State Fault Refusal :=
  match i with
  | .csrReadIndex => Sys2Proof.Machine.execCsrReadIndex s
  | .csrReadRandom => Sys2Proof.Machine.execCsrReadRandom s
  | .csrReadEntryLo0 => Sys2Proof.Machine.execCsrReadEntryLo0 s
  | .csrReadEntryLo1 => Sys2Proof.Machine.execCsrReadEntryLo1 s
  | .csrReadContext => Sys2Proof.Machine.execCsrReadContext s
  | .csrReadPageMask => Sys2Proof.Machine.execCsrReadPageMask s
  | .csrReadWired => Sys2Proof.Machine.execCsrReadWired s
  | .csrReadBadVAddr => Sys2Proof.Machine.execCsrReadBadVAddr s
  | .csrReadCount => Sys2Proof.Machine.execCsrReadCount s
  | .csrReadEntryHi => Sys2Proof.Machine.execCsrReadEntryHi s
  | .csrReadCompare => Sys2Proof.Machine.execCsrReadCompare s
  | .csrReadStatus => Sys2Proof.Machine.execCsrReadStatus s
  | .csrReadCause => Sys2Proof.Machine.execCsrReadCause s
  | .csrReadEpc => Sys2Proof.Machine.execCsrReadEpc s
  | .csrReadPrid => Sys2Proof.Machine.execCsrReadPrid s
  | .csrReadEbase => Sys2Proof.Machine.execCsrReadEbase s
  | .csrReadConfig0 => Sys2Proof.Machine.execCsrReadConfig0 s
  | .csrReadConfig1 => Sys2Proof.Machine.execCsrReadConfig1 s
  | .csrReadTagLo => Sys2Proof.Machine.execCsrReadTagLo s
  | .csrReadTagHi => Sys2Proof.Machine.execCsrReadTagHi s
  | .csrReadErrorEpc => Sys2Proof.Machine.execCsrReadErrorEpc s
  | .csrWriteIndex value => Sys2Proof.Machine.execCsrWriteIndex value s
  | .csrWriteRandom value => Sys2Proof.Machine.execCsrWriteRandom value s
  | .csrWriteEntryLo0 value => Sys2Proof.Machine.execCsrWriteEntryLo0 value s
  | .csrWriteEntryLo1 value => Sys2Proof.Machine.execCsrWriteEntryLo1 value s
  | .csrWriteContext value => Sys2Proof.Machine.execCsrWriteContext value s
  | .csrWritePageMask value => Sys2Proof.Machine.execCsrWritePageMask value s
  | .csrWriteWired value => Sys2Proof.Machine.execCsrWriteWired value s
  | .csrWriteBadVAddr value => Sys2Proof.Machine.execCsrWriteBadVAddr value s
  | .csrWriteCount value => Sys2Proof.Machine.execCsrWriteCount value s
  | .csrWriteEntryHi value => Sys2Proof.Machine.execCsrWriteEntryHi value s
  | .csrWriteCompare value => Sys2Proof.Machine.execCsrWriteCompare value s
  | .csrWriteStatus value => Sys2Proof.Machine.execCsrWriteStatus value s
  | .csrWriteCause value => Sys2Proof.Machine.execCsrWriteCause value s
  | .csrWriteEpc value => Sys2Proof.Machine.execCsrWriteEpc value s
  | .csrWritePrid value => Sys2Proof.Machine.execCsrWritePrid value s
  | .csrWriteEbase value => Sys2Proof.Machine.execCsrWriteEbase value s
  | .csrWriteConfig0 value => Sys2Proof.Machine.execCsrWriteConfig0 value s
  | .csrWriteConfig1 value => Sys2Proof.Machine.execCsrWriteConfig1 value s
  | .csrWriteTagLo value => Sys2Proof.Machine.execCsrWriteTagLo value s
  | .csrWriteTagHi value => Sys2Proof.Machine.execCsrWriteTagHi value s
  | .csrWriteErrorEpc value => Sys2Proof.Machine.execCsrWriteErrorEpc value s
  | .preInsn ext pc ds => Sys2Proof.Machine.execPreInsn ext pc ds s
  | .raise exc badva pc ds => Sys2Proof.Machine.execRaise exc badva pc ds s
  | .eret => Sys2Proof.Machine.execEret s
  | .priv => Sys2Proof.Machine.execPriv s
  | .trapQuery => Sys2Proof.Machine.execTrapQuery s
  | .invalidate va asid => Sys2Proof.Machine.execInvalidate va asid s
  | .resolve desc va => Sys2Proof.Machine.execResolve desc va s

end Sys2Proof.Machine
end

