-- ==== Sys2Proof/Machine/Port.lean ====
section
/-! DEFINITION. Machine/Port.lean: what happens on the port beside the commands' meanings: the reset pin
(70_reset_and_hazards.md R210), the class 2 outcomes (00_scope.md R7), the platform's events, and the presentation of a
command. -/

namespace Sys2Proof.Machine

/-- RESET: every piece of the block's state takes its reset value under the configuration it has; memory is neither read nor
written, what the outside does next is not the block's, and free values stay fresh (70_reset_and_hazards.md R210; log 13). -/
def resetBlock (s : State) : State :=
  { State.resetFor s.cfg with mem := s.mem, inputs := s.inputs, fresh := s.fresh }

/-- The state a class 2 violation leaves: `fatal` becomes 1, no other state changes, no result is driven (00_scope.md R7). -/
def latchFatal (s : State) : State := { retire s with fatal := true }

/-- The stop of a header that names no operation (30_encoding.md R86 (c), (d); log 4). -/
def violation (e : DecodeError) (s : State) : Fault :=
  match e with
  | .unimplementedRegister reg sel => .unimplementedRegister reg sel (latchFatal s)
  | .undefinedOperation op => .undefinedOperation op (latchFatal s)

/-- Another client of the memory port has completed a store (20_memory.md R73). -/
def platformStore (addr : DWord) (bytes : List Byte) (s : State) : State :=
  { s with mem := storeBytes s.mem addr bytes }

/-- The platform has ceased to answer at `n` addresses (20_memory.md R60). -/
def platformFail (addr : DWord) (n : Nat) (s : State) : State := { s with mem := forgetBytes s.mem addr n }

/-- The port sample that presents a command (30_encoding.md R80). -/
def presentCommand (c : Command) : Input := .port { rst := false, cmdValid := true, cmd := c }

end Sys2Proof.Machine
end

