-- ==== Sys2Proof/Machine/Serve.lean ====
section
/-! DEFINITION. Machine/Serve.lean: how one input is taken. A presented command is decoded and executed whole (00_scope.md R5,
30_encoding.md R80, R86); `rst` takes precedence over it (30_encoding.md R80; log 18); without a command nothing happens. -/

namespace Sys2Proof.Machine

/-- A command is served: after a violation it faults (93_implementation_defined.md I13; log 5), else its header is decoded and the
instruction executed (30_encoding.md R86). -/
def serveCommand (c : Command) (s : State) : Host.Outcome State Fault Refusal :=
  if s.fatal then .fault (.commandAfterFatal s)
  else
    match decode c with
    | .ok i => exec i s
    | .error e => .fault (violation e s)

/-- One input is taken. -/
def serveInput (input : Input) (s : State) : Host.Outcome State Fault Refusal :=
  match input with
  | .port p =>
    if p.rst then .next (resetBlock s)
    else if p.cmdValid then serveCommand p.cmd s
    else .next s
  | .memStore addr bytes => .next (platformStore addr bytes s)
  | .memFail addr n => .next (platformFail addr n s)

end Sys2Proof.Machine
end

