-- ==== Sys2Proof/Machine/Step.lean ====
section
/-! DEFINITION. Machine/Step.lean: one step takes the next thing the outside does (00_scope.md R5, 30_encoding.md R80). -/

namespace Sys2Proof.Machine

/-- One step. A configuration outside 00_scope.md R4 is refused (93_implementation_defined.md I7; log 14); with nothing more to come
the port is idle. -/
def step (s : State) : Host.Outcome State Fault Refusal :=
  if s.cfg.wellFormed then
    match s.inputs with
    | [] => .next s
    | input :: rest => serveInput input { s with inputs := rest }
  else .refused .configurationOutsideR4

/-- The state with a command of the opcode table presented as the very next input, every operand bus 0 (log 2, 3). -/
def State.withFetchWord (s : State) (nbits w : Nat) : State :=
  { s with inputs := presentCommand (commandOfWord nbits w) :: s.inputs }

end Sys2Proof.Machine
end

