-- ==== Sys2Proof/Safety.lean ====
section
/-! DEFINITION. Safety.lean: what a legal state of the block is (the invariants the spec states of its registers, its TLB and
its trap target), what the caller owes it, and which unit a command belongs to. -/

namespace Sys2Proof.Machine

/-- The invariants of the register bank: reserved bits read 0 (10_state.md R14), `Wired` ≤ `Random` ≤ N1 - 1 (R16), constant
fields hold their reset value (R29 to R32). -/
structure BankInv (c : Config) (b : Cp0) : Prop where
  index : b.index &&& ~~~c.topEntry = 0
  wired_le_random : b.wired ≤ b.random
  random_le_top : b.random ≤ c.topEntry
  entryLo0 : b.entryLo0 &&& 0xFC000000#32 = 0
  entryLo1 : b.entryLo1 &&& 0xFC000000#32 = 0
  context : b.context &&& 0x0000000F#32 = 0
  pageMask : b.pageMask &&& 0xE0001FFF#32 = 0
  entryHi : b.entryHi &&& 0x00001F00#32 = 0
  status : b.status &&& 0xFFBF00E0#32 = 0
  cause : b.cause &&& 0x7F7F0083#32 = 0
  prid : b.prid = c.pridValue
  ebase : b.ebase &&& 0xC0000FFF#32 = 0x80000000#32
  config0 : b.config0 &&& 0xFFFFFFF8#32 = c.config0Reset &&& 0xFFFFFFF8#32
  config1 : b.config1 = c.config1Reset

/-- What a valid TLB entry is: filled from a legal leaf, both page addresses multiples of the page size
(43_tlb_walker.md R155, R157, R158), for a well-formed address (20_memory.md R69). -/
structure EntryInv (e : TlbEntry) : Prop where
  vpa_aligned : e.vpa &&& (pageBytes e.pagesize - 1) = 0
  vpa_canonical : canonical e.vpa = true
  ppa_aligned : e.ppa &&& (pageBytes e.pagesize - 1).setWidth 56 = 0
  leaf : (e.r || e.x) = true
  writable_readable : e.w = true → e.r = true

/-- The invariants of the TLB: N2 slots, `rr` names one (10_state.md R40, R42), every valid entry is legal. -/
structure TlbInv (c : Config) (tlb : List TlbEntry) (rr : Nat) : Prop where
  length : tlb.length = c.sv39TlbEntries
  rr_lt : rr < c.sv39TlbEntries
  entries : ∀ e ∈ tlb, e.pagesize ≠ .invalid → EntryInv e

/-- A value `trap_target` can have: 0 before the first trap, the boot vector plus 0x000 or 0x180, or a legal `EBase` plus
0x000, 0x180 or 0x200 (20_memory.md R66, 10_state.md R37). -/
def trapTargetLegal (target : Word) : Prop :=
  target = 0 ∨ target = 0xBFC00200#32 ∨ target = 0xBFC00380#32 ∨
    target &&& 0xC0000FFF#32 = 0x80000000#32 ∨ target &&& 0xC0000FFF#32 = 0x80000180#32 ∨
    target &&& 0xC0000FFF#32 = 0x80000200#32

/-- A legal state of the machine. -/
structure State.Inv (s : State) : Prop where
  cfg : s.cfg.wellFormed = true
  bank : BankInv s.cfg s.cp0
  target : trapTargetLegal s.trapTarget
  tlb : TlbInv s.cfg s.tlb s.rr
  mem : Memory.wf s.mem = true

/-- What the caller owes the block: every command it presents names an operation of the table (00_scope.md R6, R7). -/
def wellDriven (inputs : List Input) : Prop :=
  ∀ p, Input.port p ∈ inputs → p.rst = false → p.cmdValid = true → p.cmd.wellFormed = true

/-- The instruction completes: `exec` answers the next state `t`, but for the results on its outputs, of which `driven` holds,
and the numbering of free values. -/
def completes (i : Instr) (s t : State) (driven : Outputs → Prop) : Prop :=
  ∃ o n, exec i s = .next { t with out := o, fresh := n } ∧ driven o

/-- The commands of unit B (30_encoding.md R82); every other command is unit A's. -/
def unitB : Instr → Bool
  | .invalidate _ _ => true
  | .resolve _ _ => true
  | _ => false

/-- The outputs of a command that neither changes `BEV` (41_csr_access.md R113) nor reads memory (20_memory.md R61). -/
def quiet (o : Outputs) : Prop := o.diagBevChanged = false ∧ o.memReads = []

/-- Entry `idx` of the table in frame `frame`: byte `frame * 4096 + 8 * idx` of physical memory (43_tlb_walker.md R156). -/
def entryAddr (frame idx : Nat) : DWord := BitVec.ofNat 64 (frame * 4096 + 8 * idx)

/-- The memory port answers the 8 bytes at `addr`, and they are `pte` in little-endian order (20_memory.md R60, R62). -/
def pteAt (m : Memory) (addr : DWord) (pte : DWord) : Prop := ∃ bytes, memRead m addr 8 = some bytes ∧ le64 bytes = pte

/-- The frame number of an entry, bits 27+P2:10, as a number (20_memory.md R71). -/
def frameOf (c : Config) (pte : DWord) : Nat := pte.toNat / 2 ^ 10 % 2 ^ (18 + c.sv39Ppn2Bits)

/-- The entry passes the three tests of 43_tlb_walker.md R157: valid, not writable without readable, no reserved bit. -/
def acceptable (c : Config) (pte : DWord) : Prop :=
  pte.getLsbD 0 = true ∧ (pte.getLsbD 2 = true → pte.getLsbD 1 = true) ∧ pte.toNat < 2 ^ (28 + c.sv39Ppn2Bits)

/-- An accepted entry that points to the next table: neither readable nor executable (43_tlb_walker.md R155). -/
def isPointer (c : Config) (pte : DWord) : Prop :=
  acceptable c pte ∧ pte.getLsbD 1 = false ∧ pte.getLsbD 3 = false

/-- An accepted entry that ends the walk: readable or executable (43_tlb_walker.md R155). -/
def isLeaf (c : Config) (pte : DWord) : Prop :=
  acceptable c pte ∧ (pte.getLsbD 1 = true ∨ pte.getLsbD 3 = true)

/-- RESOLVE of this descriptor and address gets past its two tests and hits no entry (43_tlb_walker.md R153). -/
def misses (desc va : DWord) (s : State) : Prop :=
  desc.extractLsb' 60 4 = 8#4 ∧ va = (va.extractLsb' 0 39).signExtend 64 ∧
    ∀ e ∈ s.tlb, entryMatches e va (desc.extractLsb' 44 16) = false

/-- The TLB entry that a leaf of the given size makes: the page's two addresses, with `frame` the leaf's frame number, and
the flags copied (43_tlb_walker.md R158). -/
def entryFor (size : PageSize) (bytes frame : Nat) (pte va : DWord) (asid : Asid) : TlbEntry :=
  { pagesize := size
    vpa := BitVec.ofNat 64 (va.toNat - va.toNat % bytes)
    ppa := BitVec.ofNat 56 (frame * 4096)
    asid := asid
    r := pte.getLsbD 1, w := pte.getLsbD 2, x := pte.getLsbD 3, u := pte.getLsbD 4, g := pte.getLsbD 5,
    a := pte.getLsbD 6, d := pte.getLsbD 7 }

/-- The state after the fill of `e` (43_tlb_walker.md R159). -/
def filled (e : TlbEntry) (s : State) : State :=
  { s with tlb := s.tlb.set s.rr e, rr := (s.rr + 1) % s.cfg.sv39TlbEntries }

/-- The outputs of a RESOLVE that succeeds with `e` at physical address `pa`, having read `reads` (43_tlb_walker.md R160). -/
def succeeded (e : TlbEntry) (pa : Nat) (reads : List DWord) (o : Outputs) : Prop :=
  o.resOk = true ∧ o.resEntry = e ∧ o.resPa = BitVec.ofNat 56 pa ∧ o.resolveReason = 0#4 ∧ o.memReads = reads

/-- The outputs of a RESOLVE that faults for reason `code`, having read `reads` (43_tlb_walker.md R160). -/
def faulted (code : BitVec 4) (reads : List DWord) (o : Outputs) : Prop :=
  o.resOk = false ∧ o.resolveReason = code ∧ o.memReads = reads

/-- The operand buses that 30_encoding.md R82 lists for an instruction hold its operands. -/
def operandsOn (c : Command) : Instr → Prop
  | .preInsn ext pc ds => c.opExt = ext ∧ c.opPc = pc ∧ c.opDs = ds
  | .raise exc badva pc ds => c.opExc = exc ∧ c.opBadva = badva ∧ c.opPc = pc ∧ c.opDs = ds
  | .invalidate va asid => c.opVa = va ∧ c.opAsid = asid
  | .resolve desc va => c.opDesc = desc ∧ c.opVa = va
  | .csrWriteIndex v => c.opValue = v
  | .csrWriteRandom v => c.opValue = v
  | .csrWriteEntryLo0 v => c.opValue = v
  | .csrWriteEntryLo1 v => c.opValue = v
  | .csrWriteContext v => c.opValue = v
  | .csrWritePageMask v => c.opValue = v
  | .csrWriteWired v => c.opValue = v
  | .csrWriteBadVAddr v => c.opValue = v
  | .csrWriteCount v => c.opValue = v
  | .csrWriteEntryHi v => c.opValue = v
  | .csrWriteCompare v => c.opValue = v
  | .csrWriteStatus v => c.opValue = v
  | .csrWriteCause v => c.opValue = v
  | .csrWriteEpc v => c.opValue = v
  | .csrWritePrid v => c.opValue = v
  | .csrWriteEbase v => c.opValue = v
  | .csrWriteConfig0 v => c.opValue = v
  | .csrWriteConfig1 v => c.opValue = v
  | .csrWriteTagLo v => c.opValue = v
  | .csrWriteTagHi v => c.opValue = v
  | .csrWriteErrorEpc v => c.opValue = v
  | .csrReadIndex | .csrReadRandom | .csrReadEntryLo0 | .csrReadEntryLo1 | .csrReadContext
  | .csrReadPageMask | .csrReadWired | .csrReadBadVAddr | .csrReadCount | .csrReadEntryHi
  | .csrReadCompare | .csrReadStatus | .csrReadCause | .csrReadEpc | .csrReadPrid | .csrReadEbase
  | .csrReadConfig0 | .csrReadConfig1 | .csrReadTagLo | .csrReadTagHi | .csrReadErrorEpc
  | .eret | .priv | .trapQuery => True

end Sys2Proof.Machine
end

