-- ==== Sys2Proof/Certificates/Slice0/Obligations.lean ====
section
/-! DEFINITION. Certificates/Slice0/Obligations.lean: the statements for the provers, each the formal form of rules of spec/.
A statement says an instruction COMPLETES by `completes`: `exec` answers the given next state, whatever the free values on
outputs it does not drive. `memReads`, in `quiet`, `succeeded` and `faulted` too, is the model's record of the port (log 11). -/

open Sys2Proof Sys2Proof.Machine

/-- Decode and encode agree, and decode reads exactly the header bits and buses the table gives a command. 30_encoding.md
R81, R82, R83, R87: header, op codes, operand buses, ignored bits. The cited rules rest in part on the spec's own
decisions D2, D37 (92_eei_decisions.md). -/
def Obligations.DecodeAndEncodeAgree : Prop :=
  (∀ i : Instr, decode (encode i) = .ok i) ∧
    ∀ (c : Command) (i : Instr),
      decode c = .ok i ↔ i.row.matchesHeader c.header = true ∧ operandsOn c i

/-- No header belongs to two rows of the opcode table. 30_encoding.md R86: each header selects exactly one outcome. The
cited rules rest in part on the spec's own decisions D3 (92_eei_decisions.md). -/
def Obligations.OpcodeTableRowsDisjoint : Prop :=
  opcodeTable.length = 49 ∧
    opcodeTable.Pairwise fun a b => (a.mask &&& b.mask) &&& (a.pattern ^^^ b.pattern) ≠ 0#12

/-- The decoder accepts exactly the headers of the table and names the reason it rejects any other. 30_encoding.md R86 (a)
to (d). The cited rules rest in part on the spec's own decisions D2, D3 (92_eei_decisions.md). -/
def Obligations.DecoderRejectsByName : Prop :=
  ∀ c : Command,
    (c.wellFormed = true ↔ ∃ i, decode c = .ok i) ∧
    ((c.header.extractLsb' 8 4 = 1#4 ∨ c.header.extractLsb' 8 4 = 2#4) → c.wellFormed = false →
      decode c = .error (.unimplementedRegister (c.header.extractLsb' 3 5) (c.header.extractLsb' 0 3))) ∧
    (c.header.extractLsb' 8 4 = 0#4 ∨ 10 ≤ (c.header.extractLsb' 8 4).toNat →
      decode c = .error (.undefinedOperation (c.header.extractLsb' 8 4)))

/-- Eleven headers written out from the encoding decode to the commands they stand for, and one of an unimplemented pair
is rejected. 30_encoding.md R81, R82, R87, and R86 (c) for the rejected one; the table of 95_test_vectors.md section
2.9; an omitted operand is 0 (log 3). The cited rules rest in part on the spec's own decisions D2, D3, D37
(92_eei_decisions.md). -/
def Obligations.WrittenHeadersDecode : Prop :=
  decodeTableWord 12 0x160 = some .csrReadStatus ∧
    decodeTableWord 12 0x179 = some .csrReadEbase ∧
    decodeTableWord 12 0x279 = some (.csrWriteEbase 0) ∧
    decodeTableWord 12 0x2F0 = some (.csrWriteErrorEpc 0) ∧
    decodeTableWord 12 0x37A = some (.preInsn 0 0 false) ∧
    decodeTableWord 12 0x4AB = some (.raise 0 0 0 false) ∧
    decodeTableWord 12 0x5FF = some .eret ∧
    decodeTableWord 12 0x601 = some .priv ∧
    decodeTableWord 12 0x700 = some .trapQuery ∧
    decodeTableWord 12 0x8F0 = some (.invalidate 0 0) ∧
    decodeTableWord 12 0x9A5 = some (.resolve 0 0) ∧
    decodeTableWord 12 0x17A = none

/-- A step with a command on the port executes the decoded instruction and consumes the command. 00_scope.md R5,
30_encoding.md R80: one command is one atomic step. The list of samples to come is the model's own (log 2). The cited
rules rest in part on the spec's own decisions D2 (92_eei_decisions.md). -/
def Obligations.StepRunsDecodedCommand : Prop :=
  ∀ (s : State) (p : PortSample) (rest : List Input) (i : Instr),
    s.cfg.wellFormed = true → s.fatal = false → s.inputs = .port p :: rest →
    p.rst = false → p.cmdValid = true → decode p.cmd = .ok i →
    step s = exec i { s with inputs := rest }

/-- Without a presented command nothing moves. 00_scope.md R5: the block has no step of its own; 30_encoding.md R80:
results stay valid until the next command. -/
def Obligations.StepWithoutCommandIsIdle : Prop :=
  ∀ (s : State), s.cfg.wellFormed = true →
    (s.inputs = [] → step s = .next s) ∧
    ∀ (p : PortSample) (rest : List Input), s.inputs = .port p :: rest → p.rst = false → p.cmdValid = false →
      step s = .next { s with inputs := rest }

/-- RESET sets every piece of state of the block to its reset value and leaves memory alone. 70_reset_and_hazards.md R210.
For a sample that also presents a command it rests on 30_encoding.md R80 (while rst is 1 no command is accepted), as
the model reads it (log 18, DEDUCED). What RESET keeps outside the block is log 13. The cited rules rest in part on
the spec's own decisions D3, D8, D15, D16, D29 (92_eei_decisions.md). -/
def Obligations.ResetPinSetsEveryState : Prop :=
  ∀ (s : State) (p : PortSample) (rest : List Input),
    s.cfg.wellFormed = true → s.inputs = .port p :: rest → p.rst = true →
    ∃ (o : Outputs) (n : Nat), o.resolveReason = 0#4 ∧ o.diagBevChanged = false ∧
      step s = .next
        { cfg := s.cfg
          cp0 :=
            { index := 0, random := BitVec.ofNat 32 (s.cfg.mipsTlbEntries - 1), entryLo0 := 0, entryLo1 := 0, context := 0,
               pageMask := 0, wired := 0, badVAddr := 0, count := 0, entryHi := 0, compare := 0,
               status := 0x00400000#32, cause := 0, epc := 0, prid := s.cfg.pridValue, ebase := 0x80000000#32, 
              config0 := s.cfg.config0Reset, config1 := s.cfg.config1Reset, tagLo := 0, tagHi := 0, errorEpc := 0 }
          trapPending := false, trapTarget := 0, fatal := false
          tlb := List.replicate s.cfg.sv39TlbEntries
            { pagesize := .invalid, vpa := 0, ppa := 0, asid := 0, r := false, w := false, x := false,
              u := false, g := false, a := false, d := false }
          rr := 0, out := o, mem := s.mem, inputs := rest, fresh := n }

/-- The state after reset holds the reference column of the reset table. 70_reset_and_hazards.md R210, reference
configuration of 00_scope.md R4 (log 1). The cited rules rest in part on the spec's own decisions D3, D7, D8, D15,
D16, D29 (92_eei_decisions.md). -/
def Obligations.ResetStateHoldsTableValues : Prop :=
  State.reset.cp0.index = 0x00000000#32 ∧
    State.reset.cp0.random = 0x0000000F#32 ∧
    State.reset.cp0.entryLo0 = 0x00000000#32 ∧
    State.reset.cp0.entryLo1 = 0x00000000#32 ∧
    State.reset.cp0.context = 0x00000000#32 ∧
    State.reset.cp0.pageMask = 0x00000000#32 ∧
    State.reset.cp0.wired = 0x00000000#32 ∧
    State.reset.cp0.badVAddr = 0x00000000#32 ∧
    State.reset.cp0.count = 0x00000000#32 ∧
    State.reset.cp0.entryHi = 0x00000000#32 ∧
    State.reset.cp0.compare = 0x00000000#32 ∧
    State.reset.cp0.status = 0x00400000#32 ∧
    State.reset.cp0.cause = 0x00000000#32 ∧
    State.reset.cp0.epc = 0x00000000#32 ∧
    State.reset.cp0.prid = 0x00000000#32 ∧
    State.reset.cp0.ebase = 0x80000000#32 ∧
    State.reset.cp0.config0 = 0x80000083#32 ∧
    State.reset.cp0.config1 = 0x1E000000#32 ∧
    State.reset.cp0.tagLo = 0x00000000#32 ∧
    State.reset.cp0.tagHi = 0x00000000#32 ∧
    State.reset.cp0.errorEpc = 0x00000000#32 ∧
    State.reset.trapPending = false ∧ State.reset.trapTarget = 0 ∧ State.reset.fatal = false ∧
    State.reset.rr = 0 ∧ State.reset.tlb.length = 4 ∧ ∀ e ∈ State.reset.tlb, e.pagesize = .invalid

/-- The invariant of every step holds right after reset. 10_state.md R14, R16, R40, R42; 70_reset_and_hazards.md R210. The
reference configuration of State.reset is the model's choice (log 1), as are the canonical form of memory and its
being empty at reset (log 9). The cited rules rest in part on the spec's own decisions D3, D5, D6, D8, D15, D16, D21,
D29 (92_eei_decisions.md). -/
def Obligations.ResetStateIsLegal : Prop :=
  State.reset.Inv

/-- Every step keeps the invariant of legal states. 10_state.md R14, R16, R29 to R32, R40, R42; 20_memory.md R66;
43_tlb_walker.md R157, R158. The canonical form of memory is the model's own (log 9). The cited rules rest in part on
the spec's own decisions D5, D6, D8, D15, D21, D29, D31, D32, D38 (92_eei_decisions.md). -/
def Obligations.EveryStepKeepsLegality : Prop :=
  ∀ s t : State, s.Inv → step s = .next t → t.Inv

/-- A header that names no operation stops the machine with fatal set and no other state changed. 00_scope.md R7,
30_encoding.md R86 (c), (d). The cited rules rest in part on the spec's own decisions D3 (92_eei_decisions.md). -/
def Obligations.UndefinedHeaderIsFatal : Prop :=
  ∀ (s : State) (p : PortSample) (rest : List Input) (e : DecodeError),
    s.cfg.wellFormed = true → s.fatal = false → s.inputs = .port p :: rest →
    p.rst = false → p.cmdValid = true → decode p.cmd = .error e →
    ∃ left : State,
      step s = .fault (match e with
        | .unimplementedRegister reg sel => .unimplementedRegister reg sel left
        | .undefinedOperation op => .undefinedOperation op left) ∧
      left.fatal = true ∧ left.cp0 = s.cp0 ∧ left.trapPending = s.trapPending ∧
      left.trapTarget = s.trapTarget ∧ left.tlb = s.tlb ∧ left.rr = s.rr ∧ left.mem = s.mem ∧ left.cfg = s.cfg

/-- After a violation every command faults and RESET clears fatal. 10_state.md R38; 93_implementation_defined.md I13. The
cited rules rest in part on the spec's own decisions D3 (92_eei_decisions.md). -/
def Obligations.FatalHoldsUntilReset : Prop :=
  ∀ (s : State) (p : PortSample) (rest : List Input),
    s.cfg.wellFormed = true → s.fatal = true → s.inputs = .port p :: rest →
    (p.rst = false → p.cmdValid = true → step s = .fault (.commandAfterFatal { s with inputs := rest })) ∧
    (p.rst = false → p.cmdValid = false → ∃ t, step s = .next t ∧ t.fatal = true) ∧
    (p.rst = true → ∃ t, step s = .next t ∧ t.fatal = false)

/-- A caller that presents only commands of the table never meets a fault or a refusal, however long it runs. 00_scope.md
R6, R7: a class 2 violation can never arise if the caller is correct. The cited rules rest in part on the spec's own
decisions D3 (92_eei_decisions.md). -/
def Obligations.LegalCallerNeverFaults : Prop :=
  ∀ (k : Nat) (s : State), s.cfg.wellFormed = true → s.fatal = false → wellDriven s.inputs →
    ∃ t : State, Host.Core.run Sys2Proof.core k s = .next t ∧ t.fatal = false

/-- Every command completes in every state and leaves every byte of memory, the configuration and fatal as they were.
00_scope.md R5, 20_memory.md R61: no operation invokes MemWrite. The cited rules rest in part on the spec's own
decisions D32 (92_eei_decisions.md). -/
def Obligations.EveryCommandCompletesAndLeavesMemory : Prop :=
  ∀ (i : Instr) (s : State),
    ∃ t : State, exec i s = .next t ∧ (∀ a : DWord, readByte t.mem a = readByte s.mem a) ∧
      t.mem = s.mem ∧ t.cfg = s.cfg ∧ t.fatal = s.fatal ∧ t.inputs = s.inputs

/-- No command of one unit writes state of the other. 00_scope.md R2. The cited rules rest in part on the spec's own
decisions D36 (92_eei_decisions.md). -/
def Obligations.UnitsWriteOnlyTheirOwnState : Prop :=
  ∀ (i : Instr) (s : State), ∃ t : State, exec i s = .next t ∧
    (unitB i = false → t.tlb = s.tlb ∧ t.rr = s.rr) ∧
    (unitB i = true → t.cp0 = s.cp0 ∧ t.trapPending = s.trapPending ∧ t.trapTarget = s.trapTarget)

/-- No command of one unit depends on state of the other. 00_scope.md R2; 43_tlb_walker.md R161; 60_exceptions.md R196.
That the outputs a command does not drive are equal as well is the model's choice (log 6, DESIGN CHOICE; log 8): by
93_implementation_defined.md I14 they may take any value. The cited rules rest in part on the spec's own decisions D36
(92_eei_decisions.md). -/
def Obligations.UnitsReadOnlyTheirOwnState : Prop :=
  ∀ (i : Instr) (s t : State), exec i s = .next t →
    (unitB i = false → ∀ (tlb : List TlbEntry) (rr : Nat) (mem : Memory),
      exec i { s with tlb := tlb, rr := rr, mem := mem } = .next { t with tlb := tlb, rr := rr, mem := mem }) ∧
    (unitB i = true → ∀ (cp0 : Cp0) (pending : Bool) (target : Word),
      exec i { s with cp0 := cp0, trapPending := pending, trapTarget := target } =
        .next { t with cp0 := cp0, trapPending := pending, trapTarget := target })

/-- CSR_READ of each of the 21 registers drives its 32 bits and changes no state. 41_csr_access.md R100, R124;
20_memory.md R78. The cited rules rest in part on the spec's own decisions D18 (92_eei_decisions.md). -/
def Obligations.CsrReadDrivesWholeRegister : Prop :=
  ∀ s : State,
    completes .csrReadIndex s s (fun o => o.resValue = s.cp0.index ∧ quiet o) ∧
    completes .csrReadRandom s s (fun o => o.resValue = s.cp0.random ∧ quiet o) ∧
    completes .csrReadEntryLo0 s s (fun o => o.resValue = s.cp0.entryLo0 ∧ quiet o) ∧
    completes .csrReadEntryLo1 s s (fun o => o.resValue = s.cp0.entryLo1 ∧ quiet o) ∧
    completes .csrReadContext s s (fun o => o.resValue = s.cp0.context ∧ quiet o) ∧
    completes .csrReadPageMask s s (fun o => o.resValue = s.cp0.pageMask ∧ quiet o) ∧
    completes .csrReadWired s s (fun o => o.resValue = s.cp0.wired ∧ quiet o) ∧
    completes .csrReadBadVAddr s s (fun o => o.resValue = s.cp0.badVAddr ∧ quiet o) ∧
    completes .csrReadCount s s (fun o => o.resValue = s.cp0.count ∧ quiet o) ∧
    completes .csrReadEntryHi s s (fun o => o.resValue = s.cp0.entryHi ∧ quiet o) ∧
    completes .csrReadCompare s s (fun o => o.resValue = s.cp0.compare ∧ quiet o) ∧
    completes .csrReadStatus s s (fun o => o.resValue = s.cp0.status ∧ quiet o) ∧
    completes .csrReadCause s s (fun o => o.resValue = s.cp0.cause ∧ quiet o) ∧
    completes .csrReadEpc s s (fun o => o.resValue = s.cp0.epc ∧ quiet o) ∧
    completes .csrReadPrid s s (fun o => o.resValue = s.cp0.prid ∧ quiet o) ∧
    completes .csrReadEbase s s (fun o => o.resValue = s.cp0.ebase ∧ quiet o) ∧
    completes .csrReadConfig0 s s (fun o => o.resValue = s.cp0.config0 ∧ quiet o) ∧
    completes .csrReadConfig1 s s (fun o => o.resValue = s.cp0.config1 ∧ quiet o) ∧
    completes .csrReadTagLo s s (fun o => o.resValue = s.cp0.tagLo ∧ quiet o) ∧
    completes .csrReadTagHi s s (fun o => o.resValue = s.cp0.tagHi ∧ quiet o) ∧
    completes .csrReadErrorEpc s s (fun o => o.resValue = s.cp0.errorEpc ∧ quiet o)

/-- CSR_WRITE of Count, EPC, TagLo, TagHi and ErrorEPC stores the whole word and nothing else. 41_csr_access.md R110,
R115, R120, R121, R122. -/
def Obligations.CsrWriteStoresWholeWord : Prop :=
  ∀ (v : Word) (s : State),
    completes (.csrWriteCount v) s { s with cp0 := { s.cp0 with count := v } } quiet ∧
    completes (.csrWriteEpc v) s { s with cp0 := { s.cp0 with epc := v } } quiet ∧
    completes (.csrWriteTagLo v) s { s with cp0 := { s.cp0 with tagLo := v } } quiet ∧
    completes (.csrWriteTagHi v) s { s with cp0 := { s.cp0 with tagHi := v } } quiet ∧
    completes (.csrWriteErrorEpc v) s { s with cp0 := { s.cp0 with errorEpc := v } } quiet

/-- CSR_WRITE of Random, BadVAddr, PRId and Config1 is legal and changes nothing. 41_csr_access.md R103, R109, R116, R119. -/
def Obligations.CsrWriteToReadOnlyRegisterIsDropped : Prop :=
  ∀ (v : Word) (s : State),
    completes (.csrWriteRandom v) s s quiet ∧
    completes (.csrWriteBadVAddr v) s s quiet ∧
    completes (.csrWritePrid v) s s quiet ∧
    completes (.csrWriteConfig1 v) s s quiet

/-- CSR_WRITE of EntryLo0, EntryLo1, PageMask and EntryHi stores the masked word and nothing else. 41_csr_access.md R104,
R105, R107, R111; the bits outside the mask are always 0 by the bank invariant. -/
def Obligations.CsrWriteStoresMaskedWord : Prop :=
  ∀ (v : Word) (s : State), BankInv s.cfg s.cp0 →
    completes (.csrWriteEntryLo0 v) s { s with cp0 := { s.cp0 with entryLo0 := v &&& 0x03FFFFFF#32 } } quiet ∧
    completes (.csrWriteEntryLo1 v) s { s with cp0 := { s.cp0 with entryLo1 := v &&& 0x03FFFFFF#32 } } quiet ∧
    completes (.csrWritePageMask v) s { s with cp0 := { s.cp0 with pageMask := v &&& 0x1FFFE000#32 } } quiet ∧
    completes (.csrWriteEntryHi v) s { s with cp0 := { s.cp0 with entryHi := v &&& 0xFFFFE0FF#32 } } quiet

/-- CSR_WRITE Index changes only the low log2(N1) bits. 41_csr_access.md R102. -/
def Obligations.CsrWriteIndexTakesIndexBits : Prop :=
  ∀ (v : Word) (s : State),
    completes (.csrWriteIndex v) s
      { s with cp0 := { s.cp0 with
        index := (s.cp0.index &&& ~~~BitVec.ofNat 32 (s.cfg.mipsTlbEntries - 1)) |||
          (v &&& BitVec.ofNat 32 (s.cfg.mipsTlbEntries - 1)) } } quiet

/-- CSR_WRITE Context takes PTEBase and keeps BadVPN2. 41_csr_access.md R106. -/
def Obligations.CsrWriteContextTakesPteBase : Prop :=
  ∀ (v : Word) (s : State), BankInv s.cfg s.cp0 →
    completes (.csrWriteContext v) s
      { s with cp0 := { s.cp0 with
        context := (s.cp0.context &&& 0x007FFFF0#32) ||| (v &&& 0xFF800000#32) } } quiet

/-- CSR_WRITE Wired stores the masked count and sends Random to N1 - 1. 41_csr_access.md R108. -/
def Obligations.CsrWriteWiredResetsRandom : Prop :=
  ∀ (v : Word) (s : State), s.cfg.wellFormed = true → BankInv s.cfg s.cp0 →
    completes (.csrWriteWired v) s
      { s with cp0 := { s.cp0 with
        wired := v &&& BitVec.ofNat 32 (s.cfg.mipsTlbEntries - 1)
        random := BitVec.ofNat 32 (s.cfg.mipsTlbEntries - 1) } } quiet

/-- CSR_WRITE Compare stores the value and clears Cause.IP[7]. 41_csr_access.md R112. -/
def Obligations.CsrWriteCompareClearsTimer : Prop :=
  ∀ (v : Word) (s : State),
    completes (.csrWriteCompare v) s
      { s with cp0 := { s.cp0 with compare := v, cause := s.cp0.cause &&& 0xFFFF7FFF#32 } } quiet

/-- CSR_WRITE Status stores the masked value and reports a change of BEV, and no other command reports one.
41_csr_access.md R113. The cited rules rest in part on the spec's own decisions D17 (92_eei_decisions.md). -/
def Obligations.CsrWriteStatusReportsBevChange : Prop :=
  (∀ (v : Word) (s : State), BankInv s.cfg s.cp0 →
      completes (.csrWriteStatus v) s
        { s with cp0 := { s.cp0 with status := v &&& 0x0040FF1F#32 } }
        (fun o => o.diagBevChanged = (s.cp0.status.getLsbD 22 != v.getLsbD 22) ∧ o.memReads = [])) ∧
    ∀ (i : Instr) (s : State), (∀ v, i ≠ .csrWriteStatus v) →
      ∃ t : State, exec i s = .next t ∧ t.out.diagBevChanged = false

/-- CSR_WRITE Cause changes only IV and the two software interrupt bits. 41_csr_access.md R114. -/
def Obligations.CsrWriteCauseTakesSoftwareBits : Prop :=
  ∀ (v : Word) (s : State),
    completes (.csrWriteCause v) s
      { s with cp0 := { s.cp0 with cause := (s.cp0.cause &&& 0xFF7FFCFF#32) ||| (v &&& 0x00800300#32) } } quiet

/-- CSR_WRITE EBase stores bits 29:12 under the fixed top bits. 41_csr_access.md R117, 10_state.md R30. The cited rules
rest in part on the spec's own decisions D38 (92_eei_decisions.md). -/
def Obligations.CsrWriteEBaseKeepsFixedBits : Prop :=
  ∀ (v : Word) (s : State), BankInv s.cfg s.cp0 →
    completes (.csrWriteEbase v) s
      { s with cp0 := { s.cp0 with ebase := 0x80000000#32 ||| (v &&& 0x3FFFF000#32) } } quiet

/-- CSR_WRITE Config0 changes only K0. 41_csr_access.md R118. -/
def Obligations.CsrWriteConfig0TakesK0 : Prop :=
  ∀ (v : Word) (s : State),
    completes (.csrWriteConfig0 v) s
      { s with cp0 := { s.cp0 with config0 := (s.cp0.config0 &&& 0xFFFFFFF8#32) ||| (v &&& 0x7#32) } } quiet

/-- Writing then reading back any register yields the value with only the writable bits changed. 41_csr_access.md R101,
R123. -/
def Obligations.WriteThenReadLaw : Prop :=
  ∀ (r : Csr) (v : Word) (s : State), ∃ s1 s2 : State,
    exec (r.writeInstr v) s = .next s1 ∧ exec r.readInstr s1 = .next s2 ∧
      s2.out.resValue = (getCsr s.cp0 r &&& ~~~writeMask s.cfg r) ||| (v &&& writeMask s.cfg r)

/-- PRE_INSN with no deliverable interrupt counts, latches the lines, compares the timer and clears trap_pending.
42_exception_ops.md R130, R131, R139; 60_exceptions.md R182. The cited rules rest in part on the spec's own decisions
D8, D9, D10 (92_eei_decisions.md). -/
def Obligations.PreInsnCountsAndLatches : Prop :=
  ∀ (ext : BitVec 5) (pc : Word) (ds : Bool) (s : State),
    let latched := (s.cp0.cause &&& 0xFFFF83FF#32) ||| (ext.setWidth 32 <<< 10)
    let cause := if s.cp0.count + 1 = s.cp0.compare then latched ||| 0x00008000#32 else latched
    let deliverable := s.cp0.status.getLsbD 0 = true ∧ s.cp0.status.getLsbD 1 = false ∧
      s.cp0.status.getLsbD 2 = false ∧ cause.extractLsb' 8 8 &&& s.cp0.status.extractLsb' 8 8 ≠ 0#8
    let random := if s.cp0.random ≤ s.cp0.wired then BitVec.ofNat 32 (s.cfg.mipsTlbEntries - 1)
      else s.cp0.random - 1
    ¬deliverable →
      completes (.preInsn ext pc ds) s
        { s with
          trapPending := false
          cp0 := { s.cp0 with count := s.cp0.count + 1, random := random, cause := cause } } quiet

/-- PRE_INSN with a deliverable interrupt takes the Int trap inside the same step. 42_exception_ops.md R130 to R134, R139;
60_exceptions.md R185. The cited rules rest in part on the spec's own decisions D8, D10, D11, D14
(92_eei_decisions.md). -/
def Obligations.PreInsnDeliversInterrupt : Prop :=
  ∀ (ext : BitVec 5) (pc : Word) (ds : Bool) (s : State),
    let latched := (s.cp0.cause &&& 0xFFFF83FF#32) ||| (ext.setWidth 32 <<< 10)
    let cause := if s.cp0.count + 1 = s.cp0.compare then latched ||| 0x00008000#32 else latched
    let deliverable := s.cp0.status.getLsbD 0 = true ∧ s.cp0.status.getLsbD 1 = false ∧
      s.cp0.status.getLsbD 2 = false ∧ cause.extractLsb' 8 8 &&& s.cp0.status.extractLsb' 8 8 ≠ 0#8
    let random := if s.cp0.random ≤ s.cp0.wired then BitVec.ofNat 32 (s.cfg.mipsTlbEntries - 1)
      else s.cp0.random - 1
    deliverable →
      completes (.preInsn ext pc ds) s
        { s with
          trapPending := true
          trapTarget :=
            if s.cp0.status.getLsbD 22 = true then 0xBFC00380#32
            else if s.cp0.cause.getLsbD 23 = true then s.cp0.ebase + 0x200#32
            else s.cp0.ebase + 0x180#32
          cp0 := { s.cp0 with
            count := s.cp0.count + 1
            random := random
            epc := if ds then pc - 4 else pc
            status := s.cp0.status ||| 0x00000002#32
            cause := (cause &&& 0x7FFFFF83#32) ||| (if ds then 0x80000000#32 else 0#32) } } quiet

/-- Random counts down by one from N1 - 1 to Wired and then returns to N1 - 1. 42_exception_ops.md R139. The cited rules
rest in part on the spec's own decisions D8 (92_eei_decisions.md). -/
def Obligations.RandomCountsDownToWiredAndReturns : Prop :=
  ∀ (c : Config) (w : Word), c.wellFormed = true → w.toNat ≤ c.mipsTlbEntries - 1 →
    (∀ k : Nat, k ≤ c.mipsTlbEntries - 1 - w.toNat →
      (fun r => randomNext c r w)^[k] (BitVec.ofNat 32 (c.mipsTlbEntries - 1)) =
        BitVec.ofNat 32 (c.mipsTlbEntries - 1 - k)) ∧
    (fun r => randomNext c r w)^[c.mipsTlbEntries - w.toNat] (BitVec.ofNat 32 (c.mipsTlbEntries - 1)) =
      BitVec.ofNat 32 (c.mipsTlbEntries - 1) ∧
    ∀ (ext : BitVec 5) (pc : Word) (ds : Bool) (s : State), ∃ t : State,
      exec (.preInsn ext pc ds) s = .next t ∧ t.cp0.wired = s.cp0.wired ∧
        t.cp0.random = randomNext s.cfg s.cp0.random s.cp0.wired

/-- RAISE with EXL = 0 saves the return address, records the kind and computes the target by kind. 42_exception_ops.md
R132 to R135, R140. The cited rules rest in part on the spec's own decisions D11, D12, D13 (92_eei_decisions.md). -/
def Obligations.RaiseEntersExceptionLevel : Prop :=
  ∀ (exc : BitVec 5) (badva pc : Word) (ds : Bool) (s : State), s.cp0.status.getLsbD 1 = false →
    completes (.raise exc badva pc ds) s
      { s with
        trapPending := true
        trapTarget :=
          (if s.cp0.status.getLsbD 22 = true then 0xBFC00200#32 else s.cp0.ebase) +
            (if exc = 2#5 ∨ exc = 3#5 then 0x000#32
            else if exc = 0#5 ∧ s.cp0.cause.getLsbD 23 = true ∧ s.cp0.status.getLsbD 22 = false then 0x200#32
            else 0x180#32)
        cp0 := { s.cp0 with
          epc := if ds then pc - 4 else pc
          status := s.cp0.status ||| 0x00000002#32
          cause := (s.cp0.cause &&& 0x7FFFFF83#32) ||| (if ds then 0x80000000#32 else 0#32) |||
            (exc.setWidth 32 <<< 2)
          badVAddr := if 1 ≤ exc.toNat ∧ exc.toNat ≤ 5 then badva else s.cp0.badVAddr
          context := if 1 ≤ exc.toNat ∧ exc.toNat ≤ 5 then (s.cp0.context &&& 0xFF80000F#32) ||| ((badva >>> 13) <<< 4)
            else s.cp0.context } } quiet

/-- RAISE with EXL = 1 keeps EPC and BD and goes to base + 0x180 whatever the kind. 42_exception_ops.md R132 to R135,
R140. The cited rules rest in part on the spec's own decisions D11, D12, D13 (92_eei_decisions.md). -/
def Obligations.RaiseInExceptionLevelGoesGeneral : Prop :=
  ∀ (exc : BitVec 5) (badva pc : Word) (ds : Bool) (s : State), s.cp0.status.getLsbD 1 = true →
    completes (.raise exc badva pc ds) s
      { s with
        trapPending := true
        trapTarget := (if s.cp0.status.getLsbD 22 = true then 0xBFC00200#32 else s.cp0.ebase) + 0x180#32
        cp0 := { s.cp0 with
          cause := (s.cp0.cause &&& 0xFFFFFF83#32) ||| (exc.setWidth 32 <<< 2)
          badVAddr := if 1 ≤ exc.toNat ∧ exc.toNat ≤ 5 then badva else s.cp0.badVAddr
          context := if 1 ≤ exc.toNat ∧ exc.toNat ≤ 5 then (s.cp0.context &&& 0xFF80000F#32) ||| ((badva >>> 13) <<< 4)
            else s.cp0.context } } quiet

/-- A second RAISE before ERET keeps the first return address and takes the second kind. 60_exceptions.md R186. The cited
rules rest in part on the spec's own decisions D11 (92_eei_decisions.md). -/
def Obligations.SecondTrapKeepsFirstReturn : Prop :=
  ∀ (exc1 exc : BitVec 5) (badva1 badva pc1 pc : Word) (ds1 ds : Bool) (s : State), ∃ s1 s2 : State,
    exec (.raise exc1 badva1 pc1 ds1) s = .next s1 ∧ exec (.raise exc badva pc ds) s1 = .next s2 ∧
      s2.cp0.epc = s1.cp0.epc ∧ s2.cp0.cause.getLsbD 31 = s1.cp0.cause.getLsbD 31 ∧
      s2.cp0.cause.extractLsb' 2 5 = exc ∧ s2.cp0.status = s1.cp0.status ∧
      s2.trapTarget = (if s.cp0.status.getLsbD 22 = true then 0xBFC00200#32 else s.cp0.ebase) + 0x180#32 ∧
      s2.cp0.badVAddr = (if 1 ≤ exc.toNat ∧ exc.toNat ≤ 5 then badva else s1.cp0.badVAddr)

/-- ERET returns ErrorEPC and clears ERL when ERL = 1, else returns EPC and clears EXL. 42_exception_ops.md R136. -/
def Obligations.EretReturnsAndClearsOneLevel : Prop :=
  ∀ s : State,
    (s.cp0.status.getLsbD 2 = true →
      completes .eret s { s with cp0 := { s.cp0 with status := s.cp0.status &&& 0xFFFFFFFB#32 } }
        (fun o => o.eretTarget = s.cp0.errorEpc ∧ quiet o)) ∧
    (s.cp0.status.getLsbD 2 = false →
      completes .eret s { s with cp0 := { s.cp0 with status := s.cp0.status &&& 0xFFFFFFFD#32 } }
        (fun o => o.eretTarget = s.cp0.epc ∧ quiet o))

/-- ERET after a RAISE from normal level returns the saved pc and restores Status. 42_exception_ops.md R136 (the
document's property), 60_exceptions.md R188. The cited rules rest in part on the spec's own decisions D11
(92_eei_decisions.md). -/
def Obligations.EretAfterRaiseRestores : Prop :=
  ∀ (exc : BitVec 5) (badva pc : Word) (ds : Bool) (s : State),
    s.cp0.status.getLsbD 1 = false → s.cp0.status.getLsbD 2 = false → ∃ s1 s2 : State,
      exec (.raise exc badva pc ds) s = .next s1 ∧ exec .eret s1 = .next s2 ∧
        s2.out.eretTarget = (if ds then pc - 4 else pc) ∧ s2.cp0.status = s.cp0.status ∧
        privPin s1 = 0#1 ∧ privPin s2 = privPin s

/-- PRIV shows kernel when EXL, ERL or a zero KSU says so, user otherwise, and changes nothing. 42_exception_ops.md R138;
priv is a continuous output (30_encoding.md R80; log 16). The cited rules rest in part on the spec's own decisions D19
(92_eei_decisions.md). -/
def Obligations.PrivShowsPrivilegeLevel : Prop :=
  ∀ s : State, completes .priv s s quiet ∧
    privPin s = (if s.cp0.status.getLsbD 1 = true ∨ s.cp0.status.getLsbD 2 = true ∨
      s.cp0.status.extractLsb' 3 2 = 0#2 then 0#1 else 1#1)

/-- TRAP_QUERY shows trap_pending and trap_target and clears neither. 42_exception_ops.md R137; continuous outputs
(30_encoding.md R80; log 16). The cited rules rest in part on the spec's own decisions D10 (92_eei_decisions.md). -/
def Obligations.TrapQueryShowsTrapPair : Prop :=
  ∀ s : State, completes .trapQuery s s quiet ∧
    trapPendingPin s = s.trapPending ∧ trapTargetPin s = s.trapTarget

/-- Only ERET and a CSR_WRITE of Status lead from kernel to user mode, and every RAISE command leads to kernel mode.
60_exceptions.md R190. The cited rules rest in part on the spec's own decisions D18, D19 (92_eei_decisions.md). -/
def Obligations.UserModeEnteredOnlyByEretOrStatusWrite : Prop :=
  (∀ (i : Instr) (s t : State), exec i s = .next t → privPin s = 0#1 → privPin t = 1#1 →
      (i = .eret ∨ ∃ v, i = .csrWriteStatus v) ∧ t.cp0.status.getLsbD 1 = false ∧
        t.cp0.status.getLsbD 2 = false ∧ t.cp0.status.extractLsb' 3 2 ≠ 0#2) ∧
    ∀ (exc : BitVec 5) (badva pc : Word) (ds : Bool) (s : State), ∃ t : State,
      exec (.raise exc badva pc ds) s = .next t ∧ privPin t = 0#1

/-- Nothing sets ERL except a CSR_WRITE of Status, and nothing changes ErrorEPC except its own write. 42_exception_ops.md
R140, 10_state.md R35. The cited rules rest in part on the spec's own decisions D12 (92_eei_decisions.md). -/
def Obligations.ErrorLevelSetOnlyBySoftware : Prop :=
  ∀ (i : Instr) (s t : State), exec i s = .next t →
    (s.cp0.status.getLsbD 2 = false → t.cp0.status.getLsbD 2 = true →
      ∃ v : Word, i = .csrWriteStatus v ∧ v.getLsbD 2 = true) ∧
    (t.cp0.errorEpc ≠ s.cp0.errorEpc → i = .csrWriteErrorEpc t.cp0.errorEpc)

/-- The timer-pending bit is set only by a matching PRE_INSN and cleared only by a Compare write. 60_exceptions.md R184,
R191. The cited rules rest in part on the spec's own decisions D10, D40 (92_eei_decisions.md). -/
def Obligations.TimerBitHeldUntilCompareWrite : Prop :=
  ∀ (i : Instr) (s t : State), exec i s = .next t →
    (s.cp0.cause.getLsbD 15 = true → (∀ v, i ≠ .csrWriteCompare v) → t.cp0.cause.getLsbD 15 = true) ∧
    (s.cp0.cause.getLsbD 15 = false → t.cp0.cause.getLsbD 15 = true →
      (∃ ext pc ds, i = .preInsn ext pc ds) ∧ s.cp0.count + 1 = s.cp0.compare)

/-- The plain storage registers change only by their own CSR_WRITE. 10_state.md R24, R33, R34, R36; 42_exception_ops.md
R140. The cited rules rest in part on the spec's own decisions D12 (92_eei_decisions.md). -/
def Obligations.StorageRegistersChangeOnlyByTheirWrite : Prop :=
  ∀ (i : Instr) (s t : State), exec i s = .next t →
    (t.cp0.entryHi ≠ s.cp0.entryHi → ∃ v, i = .csrWriteEntryHi v) ∧
    (t.cp0.entryLo0 ≠ s.cp0.entryLo0 → ∃ v, i = .csrWriteEntryLo0 v) ∧
    (t.cp0.entryLo1 ≠ s.cp0.entryLo1 → ∃ v, i = .csrWriteEntryLo1 v) ∧
    (t.cp0.pageMask ≠ s.cp0.pageMask → ∃ v, i = .csrWritePageMask v) ∧
    (t.cp0.index ≠ s.cp0.index → ∃ v, i = .csrWriteIndex v) ∧
    (t.cp0.tagLo ≠ s.cp0.tagLo → ∃ v, i = .csrWriteTagLo v) ∧
    (t.cp0.tagHi ≠ s.cp0.tagHi → ∃ v, i = .csrWriteTagHi v)

/-- trap_pending and trap_target change only in PRE_INSN and RAISE. 10_state.md R37; 41_csr_access.md R101;
42_exception_ops.md R136. The cited rules rest in part on the spec's own decisions D10 (92_eei_decisions.md). -/
def Obligations.TrapPairChangesOnlyByControllerTraps : Prop :=
  (∀ (i : Instr) (s t : State), exec i s = .next t → (∀ ext pc ds, i ≠ .preInsn ext pc ds) →
      (∀ exc badva pc ds, i ≠ .raise exc badva pc ds) →
      t.trapPending = s.trapPending ∧ t.trapTarget = s.trapTarget) ∧
    ∀ (exc : BitVec 5) (badva pc : Word) (ds : Bool) (s : State), ∃ t : State,
      exec (.raise exc badva pc ds) s = .next t ∧ t.trapPending = true

/-- An entry covers an address exactly when it is valid and the address masked to its own page size is its page base.
43_tlb_walker.md R150, with the entry match of R151; 20_memory.md R72. The cited rules rest in part on the spec's own
decisions D26 (92_eei_decisions.md). -/
def Obligations.EntryMatchRule : Prop :=
  ∀ (e : TlbEntry) (va : DWord) (asid : Asid),
    (covers e va = true ↔
      (e.pagesize = .kb4 ∧ va &&& 0xFFFFFFFFFFFFF000#64 = e.vpa) ∨
      (e.pagesize = .mb2 ∧ va &&& 0xFFFFFFFFFFE00000#64 = e.vpa) ∨
      (e.pagesize = .gb1 ∧ va &&& 0xFFFFFFFFC0000000#64 = e.vpa)) ∧
    (entryMatches e va asid = true ↔ covers e va = true ∧ (e.asid = asid ∨ e.g = true))

/-- INVALIDATE clears the size of exactly the selected entries and changes nothing else. 43_tlb_walker.md R152. The cited
rules rest in part on the spec's own decisions D25, D28 (92_eei_decisions.md). -/
def Obligations.InvalidateClearsSelectedEntries : Prop :=
  ∀ (va : DWord) (asid : Asid) (s : State),
    completes (.invalidate va asid) s
      { s with tlb := s.tlb.map fun e =>
        if e.pagesize ≠ .invalid ∧ (asid = 0 ∨ e.asid = asid ∨ e.g = true) ∧ (va = 0 ∨ covers e va = true)
        then { e with pagesize := .invalid } else e } quiet

/-- After INVALIDATE of an address and id the next RESOLVE of them walks. 20_memory.md R75; memReads is the model's record
of the port (log 11). The cited rules rest in part on the spec's own decisions D25, D28, D30 (92_eei_decisions.md). -/
def Obligations.InvalidateForcesNextWalk : Prop :=
  ∀ (desc va va0 : DWord) (asid0 : Asid) (s : State),
    desc.extractLsb' 60 4 = 8#4 → va = (va.extractLsb' 0 39).signExtend 64 →
    (va0 = va ∨ va0 = 0) → (asid0 = desc.extractLsb' 44 16 ∨ asid0 = 0) →
    ∃ s1 s2 : State, exec (.invalidate va0 asid0) s = .next s1 ∧
      (∀ e ∈ s1.tlb, entryMatches e va (desc.extractLsb' 44 16) = false) ∧
      exec (.resolve desc va) s1 = .next s2 ∧
      s2.out.memReads.head? = some (entryAddr (desc.extractLsb' 0 44).toNat (va.toNat / 2 ^ 30 % 512))

/-- RESOLVE faults on a wrong mode first and on a malformed address second, before the probe. 43_tlb_walker.md R154 (the
two tests), R153 (their order), R160 (the codes 1 and 2), 20_memory.md R69. The cited rules rest in part on the spec's
own decisions D30 (92_eei_decisions.md). -/
def Obligations.ResolveTestsModeThenAddress : Prop :=
  ∀ (desc va : DWord) (s : State),
    (desc.extractLsb' 60 4 ≠ 8#4 → completes (.resolve desc va) s s (faulted 1#4 [])) ∧
    (desc.extractLsb' 60 4 = 8#4 → va ≠ (va.extractLsb' 0 39).signExtend 64 →
      completes (.resolve desc va) s s (faulted 2#4 []))

/-- A RESOLVE that hits answers with the lowest matching entry, reads no memory and changes no state. 43_tlb_walker.md
R151, R153, R164; 20_memory.md R79; memReads is the model's record of the port (log 11). The cited rules rest in part
on the spec's own decisions D21, D27, D30 (92_eei_decisions.md). -/
def Obligations.ResolveHitAnswersFromTlb : Prop :=
  ∀ (desc va : DWord) (s : State) (k : Nat) (e : TlbEntry),
    desc.extractLsb' 60 4 = 8#4 → va = (va.extractLsb' 0 39).signExtend 64 →
    s.tlb[k]? = some e → entryMatches e va (desc.extractLsb' 44 16) = true →
    (∀ (j : Nat) (e' : TlbEntry), j < k → s.tlb[j]? = some e' →
      entryMatches e' va (desc.extractLsb' 44 16) = false) →
    completes (.resolve desc va) s s (fun o => o.resOk = true ∧ o.resEntry = e ∧
      o.resPa = e.ppa ||| (va &&& (pageBytes e.pagesize - 1)).setWidth 56 ∧
      o.resolveReason = 0#4 ∧ o.diagBevChanged = false ∧ o.memReads = [])

/-- A repeated RESOLVE returns the same result without a walk, whatever was stored to memory in between. 20_memory.md R74,
43_tlb_walker.md R164; memReads is the model's record of the port (log 11). -/
def Obligations.RepeatedResolveHits : Prop :=
  ∀ (desc va : DWord) (s s1 : State) (mem : Memory), TlbInv s.cfg s.tlb s.rr →
    exec (.resolve desc va) s = .next s1 → s1.out.resOk = true →
    completes (.resolve desc va) { s1 with mem := mem } { s1 with mem := mem }
      (fun o => o.resOk = true ∧ o.resEntry = s1.out.resEntry ∧ o.resPa = s1.out.resPa ∧
        o.resolveReason = 0#4 ∧ o.memReads = [])

/-- A miss whose root entry is an aligned leaf maps a 1 GB page in one read and fills slot rr. 43_tlb_walker.md R153 to
R160; 20_memory.md R68, R70 to R72, R79. The cited rules rest in part on the spec's own decisions D21, D29, D30, D31
(92_eei_decisions.md). -/
def Obligations.ResolveMapsGigabytePage : Prop :=
  ∀ (desc va p2 : DWord) (s : State),
    let frame := frameOf s.cfg p2
    let a2 := entryAddr (desc.extractLsb' 0 44).toNat (va.toNat / 2 ^ 30 % 512)
    let e := entryFor .gb1 (2 ^ 30) frame p2 va (desc.extractLsb' 44 16)
    s.cfg.wellFormed = true → misses desc va s → pteAt s.mem a2 p2 → isLeaf s.cfg p2 → frame % 2 ^ 18 = 0 →
    completes (.resolve desc va) s (filled e s)
      (succeeded e (frame * 4096 + va.toNat % 2 ^ 30) [a2])

/-- A miss with a pointer and then an aligned leaf maps a 2 MB page in two reads and fills slot rr. 43_tlb_walker.md R153
to R160; 20_memory.md R68, R70 to R72, R79. The cited rules rest in part on the spec's own decisions D21, D29, D30,
D31 (92_eei_decisions.md). -/
def Obligations.ResolveMapsTwoMegabytePage : Prop :=
  ∀ (desc va p2 p1 : DWord) (s : State),
    let frame := frameOf s.cfg p1
    let a2 := entryAddr (desc.extractLsb' 0 44).toNat (va.toNat / 2 ^ 30 % 512)
    let a1 := entryAddr (frameOf s.cfg p2) (va.toNat / 2 ^ 21 % 512)
    let e := entryFor .mb2 (2 ^ 21) frame p1 va (desc.extractLsb' 44 16)
    s.cfg.wellFormed = true → misses desc va s → pteAt s.mem a2 p2 → isPointer s.cfg p2 →
    pteAt s.mem a1 p1 → isLeaf s.cfg p1 → frame % 2 ^ 9 = 0 →
    completes (.resolve desc va) s (filled e s)
      (succeeded e (frame * 4096 + va.toNat % 2 ^ 21) [a2, a1])

/-- A miss with two pointers and then a leaf maps a 4 KB page in three reads and fills slot rr. 43_tlb_walker.md R153 to
R160; 20_memory.md R68, R70 to R72, R79. The cited rules rest in part on the spec's own decisions D21, D29, D30, D31
(92_eei_decisions.md). -/
def Obligations.ResolveMapsFourKilobytePage : Prop :=
  ∀ (desc va p2 p1 p0 : DWord) (s : State),
    let frame := frameOf s.cfg p0
    let a2 := entryAddr (desc.extractLsb' 0 44).toNat (va.toNat / 2 ^ 30 % 512)
    let a1 := entryAddr (frameOf s.cfg p2) (va.toNat / 2 ^ 21 % 512)
    let a0 := entryAddr (frameOf s.cfg p1) (va.toNat / 2 ^ 12 % 512)
    let e := entryFor .kb4 (2 ^ 12) frame p0 va (desc.extractLsb' 44 16)
    s.cfg.wellFormed = true → misses desc va s → pteAt s.mem a2 p2 → isPointer s.cfg p2 →
    pteAt s.mem a1 p1 → isPointer s.cfg p1 → pteAt s.mem a0 p0 → isLeaf s.cfg p0 →
    completes (.resolve desc va) s (filled e s)
      (succeeded e (frame * 4096 + va.toNat % 2 ^ 12) [a2, a1, a0])

/-- A failed read, an invalid entry, a writable unreadable one or one with reserved bits faults at every level.
43_tlb_walker.md R156, R157, R160, R163; 20_memory.md R65. The cited rules rest in part on the spec's own decisions
D30, D32, D39 (92_eei_decisions.md). -/
def Obligations.BadTableEntryFaultsAtEveryLevel : Prop :=
  ∀ (desc va p2 p1 p : DWord) (s : State) (code : BitVec 4),
    let a2 := entryAddr (desc.extractLsb' 0 44).toNat (va.toNat / 2 ^ 30 % 512)
    let a1 := entryAddr (frameOf s.cfg p2) (va.toNat / 2 ^ 21 % 512)
    let a0 := entryAddr (frameOf s.cfg p1) (va.toNat / 2 ^ 12 % 512)
    let bad := fun a : DWord =>
      (memRead s.mem a 8 = none ∧ code = 3#4) ∨
      (pteAt s.mem a p ∧ p.getLsbD 0 = false ∧ code = 4#4) ∨
      (pteAt s.mem a p ∧ p.getLsbD 0 = true ∧ p.getLsbD 1 = false ∧ p.getLsbD 2 = true ∧ code = 5#4) ∨
      (pteAt s.mem a p ∧ p.getLsbD 0 = true ∧ (p.getLsbD 2 = true → p.getLsbD 1 = true) ∧
        2 ^ (28 + s.cfg.sv39Ppn2Bits) ≤ p.toNat ∧ code = 6#4)
    s.cfg.wellFormed = true → misses desc va s →
    (bad a2 → completes (.resolve desc va) s s (faulted code [a2])) ∧
    (pteAt s.mem a2 p2 → isPointer s.cfg p2 → bad a1 →
      completes (.resolve desc va) s s (faulted code [a2, a1])) ∧
    (pteAt s.mem a2 p2 → isPointer s.cfg p2 → pteAt s.mem a1 p1 → isPointer s.cfg p1 → bad a0 →
      completes (.resolve desc va) s s (faulted code [a2, a1, a0]))

/-- Three pointers in a row fault as NO_LEAF. 43_tlb_walker.md R155, R160. The cited rules rest in part on the spec's own
decisions D30, D39 (92_eei_decisions.md). -/
def Obligations.PointerAtLastLevelFaults : Prop :=
  ∀ (desc va p2 p1 p0 : DWord) (s : State),
    let a2 := entryAddr (desc.extractLsb' 0 44).toNat (va.toNat / 2 ^ 30 % 512)
    let a1 := entryAddr (frameOf s.cfg p2) (va.toNat / 2 ^ 21 % 512)
    let a0 := entryAddr (frameOf s.cfg p1) (va.toNat / 2 ^ 12 % 512)
    s.cfg.wellFormed = true → misses desc va s → pteAt s.mem a2 p2 → isPointer s.cfg p2 →
    pteAt s.mem a1 p1 → isPointer s.cfg p1 → pteAt s.mem a0 p0 → isPointer s.cfg p0 →
    completes (.resolve desc va) s s (faulted 7#4 [a2, a1, a0])

/-- A superpage leaf with low frame bits faults or is masked, as the parameter says. 43_tlb_walker.md R158, R160;
00_scope.md R4. The cited rules rest in part on the spec's own decisions D7, D30, D31 (92_eei_decisions.md). -/
def Obligations.MisalignedSuperpageFaultsOrIsMasked : Prop :=
  ∀ (desc va p2 p1 : DWord) (s : State),
    let a2 := entryAddr (desc.extractLsb' 0 44).toNat (va.toNat / 2 ^ 30 % 512)
    let a1 := entryAddr (frameOf s.cfg p2) (va.toNat / 2 ^ 21 % 512)
    let f2 := frameOf s.cfg p2 - frameOf s.cfg p2 % 2 ^ 18
    let f1 := frameOf s.cfg p1 - frameOf s.cfg p1 % 2 ^ 9
    let e2 := entryFor .gb1 (2 ^ 30) f2 p2 va (desc.extractLsb' 44 16)
    let e1 := entryFor .mb2 (2 ^ 21) f1 p1 va (desc.extractLsb' 44 16)
    s.cfg.wellFormed = true → misses desc va s → pteAt s.mem a2 p2 →
    (isLeaf s.cfg p2 → frameOf s.cfg p2 % 2 ^ 18 ≠ 0 →
      (s.cfg.sv39SuperpageMisalign = .fault →
        completes (.resolve desc va) s s (faulted 8#4 [a2])) ∧
      (s.cfg.sv39SuperpageMisalign = .mask →
        completes (.resolve desc va) s (filled e2 s) (succeeded e2 (f2 * 4096 + va.toNat % 2 ^ 30) [a2]))) ∧
    (isPointer s.cfg p2 → pteAt s.mem a1 p1 → isLeaf s.cfg p1 → frameOf s.cfg p1 % 2 ^ 9 ≠ 0 →
      (s.cfg.sv39SuperpageMisalign = .fault →
        completes (.resolve desc va) s s (faulted 8#4 [a2, a1])) ∧
      (s.cfg.sv39SuperpageMisalign = .mask →
        completes (.resolve desc va) s (filled e1 s) (succeeded e1 (f1 * 4096 + va.toNat % 2 ^ 21) [a2, a1])))

/-- A RESOLVE that faults leaves the TLB, rr and everything else as they were. 43_tlb_walker.md R163, R160;
60_exceptions.md R196. The cited rules rest in part on the spec's own decisions D3, D39 (92_eei_decisions.md). -/
def Obligations.FaultingResolveChangesNothing : Prop :=
  ∀ (desc va : DWord) (s : State), ∃ t : State, exec (.resolve desc va) s = .next t ∧
    (t.out.resOk = false → 1 ≤ t.out.resolveReason.toNat ∧ t.out.resolveReason.toNat ≤ 8 ∧
      t.tlb = s.tlb ∧ t.rr = s.rr ∧ t.cp0 = s.cp0 ∧ t.trapPending = s.trapPending ∧
      t.trapTarget = s.trapTarget ∧ t.fatal = s.fatal ∧ t.mem = s.mem) ∧
    (t.out.resOk = true → t.out.resolveReason = 0#4)

/-- A RESOLVE reads at most three entries, each at a multiple of 8 below 2^56, and no other command reads memory.
20_memory.md R61, R63. The cited rules rest in part on the spec's own decisions D32 (92_eei_decisions.md). -/
def Obligations.ResolveReadsAtMostThreeAlignedEntries : Prop :=
  ∀ (i : Instr) (s : State), ∃ t : State, exec i s = .next t ∧
    t.out.memReads.length ≤ 3 ∧
    (∀ a ∈ t.out.memReads, a.toNat % 8 = 0 ∧ a.toNat < 2 ^ 56) ∧
    ((∀ desc va, i ≠ .resolve desc va) → t.out.memReads = [])

/-- For a legal entry the physical address is the page address plus the in-page offset. 20_memory.md R79. The cited rules
rest in part on the spec's own decisions D21 (92_eei_decisions.md). -/
def Obligations.OffsetOrAndPlusAgree : Prop :=
  ∀ (e : TlbEntry) (va : DWord), EntryInv e → e.pagesize ≠ .invalid →
    (physAddr e va).toNat = e.ppa.toNat + va.toNat % (pageBytes e.pagesize).toNat

/-- The bytes another client stores are the bytes a later read of the port returns, the lowest address lowest.
20_memory.md R60, R62, R73. The cited rules rest in part on the spec's own decisions D21, D24, D34
(92_eei_decisions.md). -/
def Obligations.StoreThenReadLittleEndian : Prop :=
  ∀ (s : State) (rest : List Input) (a : DWord) (b0 b1 b2 b3 b4 b5 b6 b7 : Byte),
    s.cfg.wellFormed = true → s.inputs = .memStore a [b0, b1, b2, b3, b4, b5, b6, b7] :: rest →
    ∃ t : State, step s = .next t ∧
      memRead t.mem a 8 = some [b0, b1, b2, b3, b4, b5, b6, b7] ∧
      pteAt t.mem a (b7 ++ b6 ++ b5 ++ b4 ++ b3 ++ b2 ++ b1 ++ b0) ∧
      ∀ x : DWord, (∀ k : Nat, k < 8 → x ≠ a + BitVec.ofNat 64 k) → readByte t.mem x = readByte s.mem x
end

