-- ==== Sys2Proof/Laws/PerInstr.lean ====
section
/-! SUPPORT. Laws/PerInstr.lean: the families of facts that hold of every instruction, one lemma per constructor. -/

/-- The header the encoder writes belongs to the instruction's own row of spec/opcode_table.json (30_encoding.md R81, R87). -/
def Sys2Proof.Laws.HeaderInTable.Statement (i : Sys2Proof.Instr) : Prop :=
  i.row ∈ Sys2Proof.opcodeTable ∧ i.row.matchesHeader (Sys2Proof.encode i).header = true

namespace Sys2Proof.Laws.HeaderInTable

theorem csrReadIndex : Statement .csrReadIndex :=
  ⟨List.mem_of_getElem? (i := 0) rfl, rfl⟩
theorem csrReadRandom : Statement .csrReadRandom :=
  ⟨List.mem_of_getElem? (i := 1) rfl, rfl⟩
theorem csrReadEntryLo0 : Statement .csrReadEntryLo0 :=
  ⟨List.mem_of_getElem? (i := 2) rfl, rfl⟩
theorem csrReadEntryLo1 : Statement .csrReadEntryLo1 :=
  ⟨List.mem_of_getElem? (i := 3) rfl, rfl⟩
theorem csrReadContext : Statement .csrReadContext :=
  ⟨List.mem_of_getElem? (i := 4) rfl, rfl⟩
theorem csrReadPageMask : Statement .csrReadPageMask :=
  ⟨List.mem_of_getElem? (i := 5) rfl, rfl⟩
theorem csrReadWired : Statement .csrReadWired :=
  ⟨List.mem_of_getElem? (i := 6) rfl, rfl⟩
theorem csrReadBadVAddr : Statement .csrReadBadVAddr :=
  ⟨List.mem_of_getElem? (i := 7) rfl, rfl⟩
theorem csrReadCount : Statement .csrReadCount :=
  ⟨List.mem_of_getElem? (i := 8) rfl, rfl⟩
theorem csrReadEntryHi : Statement .csrReadEntryHi :=
  ⟨List.mem_of_getElem? (i := 9) rfl, rfl⟩
theorem csrReadCompare : Statement .csrReadCompare :=
  ⟨List.mem_of_getElem? (i := 10) rfl, rfl⟩
theorem csrReadStatus : Statement .csrReadStatus :=
  ⟨List.mem_of_getElem? (i := 11) rfl, rfl⟩
theorem csrReadCause : Statement .csrReadCause :=
  ⟨List.mem_of_getElem? (i := 12) rfl, rfl⟩
theorem csrReadEpc : Statement .csrReadEpc :=
  ⟨List.mem_of_getElem? (i := 13) rfl, rfl⟩
theorem csrReadPrid : Statement .csrReadPrid :=
  ⟨List.mem_of_getElem? (i := 14) rfl, rfl⟩
theorem csrReadEbase : Statement .csrReadEbase :=
  ⟨List.mem_of_getElem? (i := 15) rfl, rfl⟩
theorem csrReadConfig0 : Statement .csrReadConfig0 :=
  ⟨List.mem_of_getElem? (i := 16) rfl, rfl⟩
theorem csrReadConfig1 : Statement .csrReadConfig1 :=
  ⟨List.mem_of_getElem? (i := 17) rfl, rfl⟩
theorem csrReadTagLo : Statement .csrReadTagLo :=
  ⟨List.mem_of_getElem? (i := 18) rfl, rfl⟩
theorem csrReadTagHi : Statement .csrReadTagHi :=
  ⟨List.mem_of_getElem? (i := 19) rfl, rfl⟩
theorem csrReadErrorEpc : Statement .csrReadErrorEpc :=
  ⟨List.mem_of_getElem? (i := 20) rfl, rfl⟩
theorem csrWriteIndex (value : Word) : Statement (.csrWriteIndex value) :=
  ⟨List.mem_of_getElem? (i := 21) rfl, by simp only [Instr.row, encode, Command.ofHeader]; decide⟩
theorem csrWriteRandom (value : Word) : Statement (.csrWriteRandom value) :=
  ⟨List.mem_of_getElem? (i := 22) rfl, by simp only [Instr.row, encode, Command.ofHeader]; decide⟩
theorem csrWriteEntryLo0 (value : Word) : Statement (.csrWriteEntryLo0 value) :=
  ⟨List.mem_of_getElem? (i := 23) rfl, by simp only [Instr.row, encode, Command.ofHeader]; decide⟩
theorem csrWriteEntryLo1 (value : Word) : Statement (.csrWriteEntryLo1 value) :=
  ⟨List.mem_of_getElem? (i := 24) rfl, by simp only [Instr.row, encode, Command.ofHeader]; decide⟩
theorem csrWriteContext (value : Word) : Statement (.csrWriteContext value) :=
  ⟨List.mem_of_getElem? (i := 25) rfl, by simp only [Instr.row, encode, Command.ofHeader]; decide⟩
theorem csrWritePageMask (value : Word) : Statement (.csrWritePageMask value) :=
  ⟨List.mem_of_getElem? (i := 26) rfl, by simp only [Instr.row, encode, Command.ofHeader]; decide⟩
theorem csrWriteWired (value : Word) : Statement (.csrWriteWired value) :=
  ⟨List.mem_of_getElem? (i := 27) rfl, by simp only [Instr.row, encode, Command.ofHeader]; decide⟩
theorem csrWriteBadVAddr (value : Word) : Statement (.csrWriteBadVAddr value) :=
  ⟨List.mem_of_getElem? (i := 28) rfl, by simp only [Instr.row, encode, Command.ofHeader]; decide⟩
theorem csrWriteCount (value : Word) : Statement (.csrWriteCount value) :=
  ⟨List.mem_of_getElem? (i := 29) rfl, by simp only [Instr.row, encode, Command.ofHeader]; decide⟩
theorem csrWriteEntryHi (value : Word) : Statement (.csrWriteEntryHi value) :=
  ⟨List.mem_of_getElem? (i := 30) rfl, by simp only [Instr.row, encode, Command.ofHeader]; decide⟩
theorem csrWriteCompare (value : Word) : Statement (.csrWriteCompare value) :=
  ⟨List.mem_of_getElem? (i := 31) rfl, by simp only [Instr.row, encode, Command.ofHeader]; decide⟩
theorem csrWriteStatus (value : Word) : Statement (.csrWriteStatus value) :=
  ⟨List.mem_of_getElem? (i := 32) rfl, by simp only [Instr.row, encode, Command.ofHeader]; decide⟩
theorem csrWriteCause (value : Word) : Statement (.csrWriteCause value) :=
  ⟨List.mem_of_getElem? (i := 33) rfl, by simp only [Instr.row, encode, Command.ofHeader]; decide⟩
theorem csrWriteEpc (value : Word) : Statement (.csrWriteEpc value) :=
  ⟨List.mem_of_getElem? (i := 34) rfl, by simp only [Instr.row, encode, Command.ofHeader]; decide⟩
theorem csrWritePrid (value : Word) : Statement (.csrWritePrid value) :=
  ⟨List.mem_of_getElem? (i := 35) rfl, by simp only [Instr.row, encode, Command.ofHeader]; decide⟩
theorem csrWriteEbase (value : Word) : Statement (.csrWriteEbase value) :=
  ⟨List.mem_of_getElem? (i := 36) rfl, by simp only [Instr.row, encode, Command.ofHeader]; decide⟩
theorem csrWriteConfig0 (value : Word) : Statement (.csrWriteConfig0 value) :=
  ⟨List.mem_of_getElem? (i := 37) rfl, by simp only [Instr.row, encode, Command.ofHeader]; decide⟩
theorem csrWriteConfig1 (value : Word) : Statement (.csrWriteConfig1 value) :=
  ⟨List.mem_of_getElem? (i := 38) rfl, by simp only [Instr.row, encode, Command.ofHeader]; decide⟩
theorem csrWriteTagLo (value : Word) : Statement (.csrWriteTagLo value) :=
  ⟨List.mem_of_getElem? (i := 39) rfl, by simp only [Instr.row, encode, Command.ofHeader]; decide⟩
theorem csrWriteTagHi (value : Word) : Statement (.csrWriteTagHi value) :=
  ⟨List.mem_of_getElem? (i := 40) rfl, by simp only [Instr.row, encode, Command.ofHeader]; decide⟩
theorem csrWriteErrorEpc (value : Word) : Statement (.csrWriteErrorEpc value) :=
  ⟨List.mem_of_getElem? (i := 41) rfl, by simp only [Instr.row, encode, Command.ofHeader]; decide⟩
theorem preInsn (ext : BitVec 5) (pc : Word) (ds : Bool) : Statement (.preInsn ext pc ds) :=
  ⟨List.mem_of_getElem? (i := 42) rfl, by simp only [Instr.row, encode, Command.ofHeader]; decide⟩
theorem raise (exc : BitVec 5) (badva pc : Word) (ds : Bool) : Statement (.raise exc badva pc ds) :=
  ⟨List.mem_of_getElem? (i := 43) rfl, by simp only [Instr.row, encode, Command.ofHeader]; decide⟩
theorem eret : Statement .eret :=
  ⟨List.mem_of_getElem? (i := 44) rfl, rfl⟩
theorem priv : Statement .priv :=
  ⟨List.mem_of_getElem? (i := 45) rfl, rfl⟩
theorem trapQuery : Statement .trapQuery :=
  ⟨List.mem_of_getElem? (i := 46) rfl, rfl⟩
theorem invalidate (va : DWord) (asid : Asid) : Statement (.invalidate va asid) :=
  ⟨List.mem_of_getElem? (i := 47) rfl, by simp only [Instr.row, encode, Command.ofHeader]; decide⟩
theorem resolve (desc va : DWord) : Statement (.resolve desc va) :=
  ⟨List.mem_of_getElem? (i := 48) rfl, by simp only [Instr.row, encode, Command.ofHeader]; decide⟩

end Sys2Proof.Laws.HeaderInTable
end

