-- ==== Sys2Proof/Laws/Decode.lean ====
section
/-! SUPPORT. Laws/Decode.lean: the register table read in both directions, and what the decoder answers. -/

namespace Sys2Proof

/-- Every register is in the list of registers. -/
theorem Csr.mem_all (r : Csr) : r ∈ Csr.all := by cases r <;> decide

/-- No two registers share a pair. -/
theorem Csr.address_injective (q r : Csr) (h : q.address = r.address) : q = r := by
  have all : ∀ q ∈ Csr.all, ∀ r ∈ Csr.all, q.address = r.address → q = r := by decide
  exact all q q.mem_all r r.mem_all h

/-- The register found at a pair is the one whose address it is. -/
theorem csrAt_eq_some (reg : BitVec 5) (sel : BitVec 3) (r : Csr) : csrAt reg sel = some r ↔ r.address = reg ++ sel := by
  constructor
  · intro h
    simpa using List.find?_some h
  · intro h
    have hs : (Csr.all.find? fun q => q.address == reg ++ sel).isSome = true := by
      rw [List.find?_isSome]
      exact ⟨r, r.mem_all, by simpa using h⟩
    obtain ⟨q, hq⟩ := Option.isSome_iff_exists.mp hs
    have hqa : q.address = reg ++ sel := by simpa using List.find?_some hq
    rw [csrAt, hq, Csr.address_injective q r (hqa.trans h.symm)]

/-- What the decoder of a CSR access answers: the access to the register of the header's pair, or its rejection. -/
theorem decodeCsr_eq_ok (access : Csr → Instr) (h : BitVec 12) (i : Instr) :
    decodeCsr access h = .ok i ↔ ∃ r : Csr, r.address = headerReg h ++ headerSel h ∧ access r = i := by
  unfold decodeCsr
  split
  · rename_i r hr
    rw [csrAt_eq_some] at hr
    constructor
    · intro e
      exact ⟨r, hr, by simpa using e⟩
    · rintro ⟨q, hq, rfl⟩
      rw [Csr.address_injective q r (hq.trans hr.symm)]
  · rename_i hn
    constructor
    · intro e; cases e
    · rintro ⟨q, hq, rfl⟩
      rw [(csrAt_eq_some _ _ q).mpr hq] at hn
      cases hn

/-- A header is its op code, register number and selector. -/
theorem header_eq_append (h : BitVec 12) : h = headerOp h ++ (headerReg h ++ headerSel h) := by
  apply BitVec.eq_of_getLsbD_eq
  intro i hi
  simp only [BitVec.getLsbD_append, headerOp, headerReg, headerSel, BitVec.getLsbD_extractLsb']
  by_cases h1 : i < 3
  · have h2 : i < 5 + 3 := by omega
    simp [h1, h2]
  · by_cases h2 : i < 5 + 3
    · have h3 : i - 3 < 5 := by omega
      have h4 : 3 + (i - 3) = i := by omega
      simp [h1, h2, h3, h4]
    · have h3 : i - (5 + 3) < 4 := by omega
      have h4 : 8 + (i - 8) = i := by omega
      have h6 : ¬ i < 8 := by omega
      simp [h6, h3, h4]

/-- The three fields of a CSR header. -/
theorem csrHeader_fields (op : BitVec 4) (r : Csr) :
    headerOp (csrHeader op r) = op ∧ headerReg (csrHeader op r) ++ headerSel (csrHeader op r) = r.address := by
  have h : ∀ op : BitVec 4, ∀ r ∈ Csr.all, headerOp (csrHeader op r) = op ∧
      headerReg (csrHeader op r) ++ headerSel (csrHeader op r) = r.address := by decide
  exact h op r r.mem_all

/-- A CSR header decodes to the access to its register. -/
theorem decodeCsr_csrHeader (access : Csr → Instr) (op : BitVec 4) (r : Csr) :
    decodeCsr access (csrHeader op r) = .ok (access r) :=
  (decodeCsr_eq_ok _ _ _).mpr ⟨r, (csrHeader_fields op r).2.symm, rfl⟩

/-- A CSR_READ header decodes to the read of its register. -/
theorem decode_readHeader (c : Command) (r : Csr) (h : c.header = csrHeader 0x1#4 r) : decode c = .ok r.readInstr := by
  simp only [decode, h, (csrHeader_fields 0x1#4 r).1, decodeCsr_csrHeader]
  rfl

/-- A CSR_WRITE header decodes to the write of the value bus to its register. -/
theorem decode_writeHeader (c : Command) (r : Csr) (h : c.header = csrHeader 0x2#4 r) :
    decode c = .ok (r.writeInstr c.opValue) := by
  simp only [decode, h, (csrHeader_fields 0x2#4 r).1, decodeCsr_csrHeader]
  simp

/-- What the decoder accepts, op code by op code. -/
theorem decode_eq_ok (c : Command) (i : Instr) (h : decode c = .ok i) :
    (headerOp c.header = 0x1#4 ∧ ∃ r : Csr, c.header = csrHeader 0x1#4 r ∧ i = r.readInstr) ∨
    (headerOp c.header = 0x2#4 ∧ ∃ r : Csr, c.header = csrHeader 0x2#4 r ∧ i = r.writeInstr c.opValue) ∨
    (headerOp c.header = 0x3#4 ∧ i = .preInsn c.opExt c.opPc c.opDs) ∨
    (headerOp c.header = 0x4#4 ∧ i = .raise c.opExc c.opBadva c.opPc c.opDs) ∨
    (headerOp c.header = 0x5#4 ∧ i = .eret) ∨ (headerOp c.header = 0x6#4 ∧ i = .priv) ∨
    (headerOp c.header = 0x7#4 ∧ i = .trapQuery) ∨
    (headerOp c.header = 0x8#4 ∧ i = .invalidate c.opVa c.opAsid) ∨
    (headerOp c.header = 0x9#4 ∧ i = .resolve c.opDesc c.opVa) := by
  have csr : ∀ (op : BitVec 4) (access : Csr → Instr), headerOp c.header = op →
      decodeCsr access c.header = .ok i → ∃ r : Csr, c.header = csrHeader op r ∧ i = access r := by
    intro op access ho hd
    obtain ⟨r, hr, hi⟩ := (decodeCsr_eq_ok _ _ _).mp hd
    refine ⟨r, ?_, hi.symm⟩
    rw [csrHeader, hr, ← ho]
    exact header_eq_append c.header
  unfold decode at h
  by_cases h1 : headerOp c.header = 0x1#4
  · exact .inl ⟨h1, csr _ _ h1 (by simpa [h1] using h)⟩
  by_cases h2 : headerOp c.header = 0x2#4
  · exact .inr (.inl ⟨h2, csr _ _ h2 (by simpa [h2] using h)⟩)
  by_cases h3 : headerOp c.header = 0x3#4
  · simp_all
  by_cases h4 : headerOp c.header = 0x4#4
  · simp_all
  by_cases h5 : headerOp c.header = 0x5#4
  · simp_all
  by_cases h6 : headerOp c.header = 0x6#4
  · simp_all
  by_cases h7 : headerOp c.header = 0x7#4
  · simp_all
  by_cases h8 : headerOp c.header = 0x8#4
  · simp_all
  by_cases h9 : headerOp c.header = 0x9#4
  · simp_all
  · simp [h1, h2, h3, h4, h5, h6, h7, h8, h9] at h

end Sys2Proof
end

