-- ==== Sys2Proof/Laws/State.lean ====
section
/-! SUPPORT. Laws/State.lean: one lemma per field of State and of the register bank per named update, true by rfl, so that no
proof unfolds a record update. -/

namespace Sys2Proof.Machine

/-! ### `respond` -/

@[simp] theorem respond_cfg (o : Outputs) (s : State) : (respond o s).cfg = s.cfg := rfl
@[simp] theorem respond_cp0 (o : Outputs) (s : State) : (respond o s).cp0 = s.cp0 := rfl
@[simp] theorem respond_trapPending (o : Outputs) (s : State) : (respond o s).trapPending = s.trapPending := rfl
@[simp] theorem respond_trapTarget (o : Outputs) (s : State) : (respond o s).trapTarget = s.trapTarget := rfl
@[simp] theorem respond_fatal (o : Outputs) (s : State) : (respond o s).fatal = s.fatal := rfl
@[simp] theorem respond_tlb (o : Outputs) (s : State) : (respond o s).tlb = s.tlb := rfl
@[simp] theorem respond_rr (o : Outputs) (s : State) : (respond o s).rr = s.rr := rfl
@[simp] theorem respond_out (o : Outputs) (s : State) : (respond o s).out = o := rfl
@[simp] theorem respond_mem (o : Outputs) (s : State) : (respond o s).mem = s.mem := rfl
@[simp] theorem respond_inputs (o : Outputs) (s : State) : (respond o s).inputs = s.inputs := rfl
@[simp] theorem respond_fresh (o : Outputs) (s : State) : (respond o s).fresh = s.fresh + 1 := rfl

/-! ### `retire` -/

@[simp] theorem retire_cfg (s : State) : (retire s).cfg = s.cfg := rfl
@[simp] theorem retire_cp0 (s : State) : (retire s).cp0 = s.cp0 := rfl
@[simp] theorem retire_trapPending (s : State) : (retire s).trapPending = s.trapPending := rfl
@[simp] theorem retire_trapTarget (s : State) : (retire s).trapTarget = s.trapTarget := rfl
@[simp] theorem retire_fatal (s : State) : (retire s).fatal = s.fatal := rfl
@[simp] theorem retire_tlb (s : State) : (retire s).tlb = s.tlb := rfl
@[simp] theorem retire_rr (s : State) : (retire s).rr = s.rr := rfl
@[simp] theorem retire_out (s : State) : (retire s).out = undriven s.fresh := rfl
@[simp] theorem retire_mem (s : State) : (retire s).mem = s.mem := rfl
@[simp] theorem retire_inputs (s : State) : (retire s).inputs = s.inputs := rfl
@[simp] theorem retire_fresh (s : State) : (retire s).fresh = s.fresh + 1 := rfl

/-! ### `latchFatal` -/

@[simp] theorem latchFatal_cfg (s : State) : (latchFatal s).cfg = s.cfg := rfl
@[simp] theorem latchFatal_cp0 (s : State) : (latchFatal s).cp0 = s.cp0 := rfl
@[simp] theorem latchFatal_trapPending (s : State) : (latchFatal s).trapPending = s.trapPending := rfl
@[simp] theorem latchFatal_trapTarget (s : State) : (latchFatal s).trapTarget = s.trapTarget := rfl
@[simp] theorem latchFatal_fatal (s : State) : (latchFatal s).fatal = true := rfl
@[simp] theorem latchFatal_tlb (s : State) : (latchFatal s).tlb = s.tlb := rfl
@[simp] theorem latchFatal_rr (s : State) : (latchFatal s).rr = s.rr := rfl
@[simp] theorem latchFatal_out (s : State) : (latchFatal s).out = undriven s.fresh := rfl
@[simp] theorem latchFatal_mem (s : State) : (latchFatal s).mem = s.mem := rfl
@[simp] theorem latchFatal_inputs (s : State) : (latchFatal s).inputs = s.inputs := rfl
@[simp] theorem latchFatal_fresh (s : State) : (latchFatal s).fresh = s.fresh + 1 := rfl

/-! ### `resetBlock` -/

@[simp] theorem resetBlock_cfg (s : State) : (resetBlock s).cfg = s.cfg := rfl
@[simp] theorem resetBlock_cp0 (s : State) : (resetBlock s).cp0 = Cp0.resetFor s.cfg := rfl
@[simp] theorem resetBlock_trapPending (s : State) : (resetBlock s).trapPending = false := rfl
@[simp] theorem resetBlock_trapTarget (s : State) : (resetBlock s).trapTarget = 0 := rfl
@[simp] theorem resetBlock_fatal (s : State) : (resetBlock s).fatal = false := rfl
@[simp] theorem resetBlock_tlb (s : State) : (resetBlock s).tlb = List.replicate s.cfg.sv39TlbEntries TlbEntry.reset := rfl
@[simp] theorem resetBlock_rr (s : State) : (resetBlock s).rr = 0 := rfl
@[simp] theorem resetBlock_out (s : State) : (resetBlock s).out = Outputs.reset := rfl
@[simp] theorem resetBlock_mem (s : State) : (resetBlock s).mem = s.mem := rfl
@[simp] theorem resetBlock_inputs (s : State) : (resetBlock s).inputs = s.inputs := rfl
@[simp] theorem resetBlock_fresh (s : State) : (resetBlock s).fresh = s.fresh := rfl

/-! ### `platformStore` -/

@[simp] theorem platformStore_cfg (a : DWord) (bs : List Byte) (s : State) : (platformStore a bs s).cfg = s.cfg := rfl
@[simp] theorem platformStore_cp0 (a : DWord) (bs : List Byte) (s : State) : (platformStore a bs s).cp0 = s.cp0 := rfl
@[simp] theorem platformStore_trapPending (a : DWord) (bs : List Byte) (s : State) : (platformStore a bs s).trapPending = s.trapPending := rfl
@[simp] theorem platformStore_trapTarget (a : DWord) (bs : List Byte) (s : State) : (platformStore a bs s).trapTarget = s.trapTarget := rfl
@[simp] theorem platformStore_fatal (a : DWord) (bs : List Byte) (s : State) : (platformStore a bs s).fatal = s.fatal := rfl
@[simp] theorem platformStore_tlb (a : DWord) (bs : List Byte) (s : State) : (platformStore a bs s).tlb = s.tlb := rfl
@[simp] theorem platformStore_rr (a : DWord) (bs : List Byte) (s : State) : (platformStore a bs s).rr = s.rr := rfl
@[simp] theorem platformStore_out (a : DWord) (bs : List Byte) (s : State) : (platformStore a bs s).out = s.out := rfl
@[simp] theorem platformStore_mem (a : DWord) (bs : List Byte) (s : State) : (platformStore a bs s).mem = storeBytes s.mem a bs := rfl
@[simp] theorem platformStore_inputs (a : DWord) (bs : List Byte) (s : State) : (platformStore a bs s).inputs = s.inputs := rfl
@[simp] theorem platformStore_fresh (a : DWord) (bs : List Byte) (s : State) : (platformStore a bs s).fresh = s.fresh := rfl

/-! ### `platformFail` -/

@[simp] theorem platformFail_cfg (a : DWord) (n : Nat) (s : State) : (platformFail a n s).cfg = s.cfg := rfl
@[simp] theorem platformFail_cp0 (a : DWord) (n : Nat) (s : State) : (platformFail a n s).cp0 = s.cp0 := rfl
@[simp] theorem platformFail_trapPending (a : DWord) (n : Nat) (s : State) : (platformFail a n s).trapPending = s.trapPending := rfl
@[simp] theorem platformFail_trapTarget (a : DWord) (n : Nat) (s : State) : (platformFail a n s).trapTarget = s.trapTarget := rfl
@[simp] theorem platformFail_fatal (a : DWord) (n : Nat) (s : State) : (platformFail a n s).fatal = s.fatal := rfl
@[simp] theorem platformFail_tlb (a : DWord) (n : Nat) (s : State) : (platformFail a n s).tlb = s.tlb := rfl
@[simp] theorem platformFail_rr (a : DWord) (n : Nat) (s : State) : (platformFail a n s).rr = s.rr := rfl
@[simp] theorem platformFail_out (a : DWord) (n : Nat) (s : State) : (platformFail a n s).out = s.out := rfl
@[simp] theorem platformFail_mem (a : DWord) (n : Nat) (s : State) : (platformFail a n s).mem = forgetBytes s.mem a n := rfl
@[simp] theorem platformFail_inputs (a : DWord) (n : Nat) (s : State) : (platformFail a n s).inputs = s.inputs := rfl
@[simp] theorem platformFail_fresh (a : DWord) (n : Nat) (s : State) : (platformFail a n s).fresh = s.fresh := rfl

/-! ### `fillTlb` -/

@[simp] theorem fillTlb_cfg (e : TlbEntry) (s : State) : (fillTlb e s).cfg = s.cfg := rfl
@[simp] theorem fillTlb_cp0 (e : TlbEntry) (s : State) : (fillTlb e s).cp0 = s.cp0 := rfl
@[simp] theorem fillTlb_trapPending (e : TlbEntry) (s : State) : (fillTlb e s).trapPending = s.trapPending := rfl
@[simp] theorem fillTlb_trapTarget (e : TlbEntry) (s : State) : (fillTlb e s).trapTarget = s.trapTarget := rfl
@[simp] theorem fillTlb_fatal (e : TlbEntry) (s : State) : (fillTlb e s).fatal = s.fatal := rfl
@[simp] theorem fillTlb_tlb (e : TlbEntry) (s : State) : (fillTlb e s).tlb = s.tlb.set s.rr e := rfl
@[simp] theorem fillTlb_rr (e : TlbEntry) (s : State) : (fillTlb e s).rr = (s.rr + 1) % s.cfg.sv39TlbEntries := rfl
@[simp] theorem fillTlb_out (e : TlbEntry) (s : State) : (fillTlb e s).out = s.out := rfl
@[simp] theorem fillTlb_mem (e : TlbEntry) (s : State) : (fillTlb e s).mem = s.mem := rfl
@[simp] theorem fillTlb_inputs (e : TlbEntry) (s : State) : (fillTlb e s).inputs = s.inputs := rfl
@[simp] theorem fillTlb_fresh (e : TlbEntry) (s : State) : (fillTlb e s).fresh = s.fresh := rfl

/-! ### `readCsr` -/

@[simp] theorem readCsr_cfg (r : Csr) (s : State) : (readCsr r s).cfg = s.cfg := rfl
@[simp] theorem readCsr_cp0 (r : Csr) (s : State) : (readCsr r s).cp0 = s.cp0 := rfl
@[simp] theorem readCsr_trapPending (r : Csr) (s : State) : (readCsr r s).trapPending = s.trapPending := rfl
@[simp] theorem readCsr_trapTarget (r : Csr) (s : State) : (readCsr r s).trapTarget = s.trapTarget := rfl
@[simp] theorem readCsr_fatal (r : Csr) (s : State) : (readCsr r s).fatal = s.fatal := rfl
@[simp] theorem readCsr_tlb (r : Csr) (s : State) : (readCsr r s).tlb = s.tlb := rfl
@[simp] theorem readCsr_rr (r : Csr) (s : State) : (readCsr r s).rr = s.rr := rfl
@[simp] theorem readCsr_out (r : Csr) (s : State) : (readCsr r s).out = { undriven s.fresh with resValue := getCsr s.cp0 r } := rfl
@[simp] theorem readCsr_mem (r : Csr) (s : State) : (readCsr r s).mem = s.mem := rfl
@[simp] theorem readCsr_inputs (r : Csr) (s : State) : (readCsr r s).inputs = s.inputs := rfl
@[simp] theorem readCsr_fresh (r : Csr) (s : State) : (readCsr r s).fresh = s.fresh + 1 := rfl

/-! ### `writeCsr` -/

@[simp] theorem writeCsr_cfg (r : Csr) (v : Word) (s : State) : (writeCsr r v s).cfg = s.cfg := rfl
@[simp] theorem writeCsr_cp0 (r : Csr) (v : Word) (s : State) : (writeCsr r v s).cp0 = setCsr s.cp0 (maskedWrite (writeMask s.cfg r) (getCsr s.cp0 r) v) r := rfl
@[simp] theorem writeCsr_trapPending (r : Csr) (v : Word) (s : State) : (writeCsr r v s).trapPending = s.trapPending := rfl
@[simp] theorem writeCsr_trapTarget (r : Csr) (v : Word) (s : State) : (writeCsr r v s).trapTarget = s.trapTarget := rfl
@[simp] theorem writeCsr_fatal (r : Csr) (v : Word) (s : State) : (writeCsr r v s).fatal = s.fatal := rfl
@[simp] theorem writeCsr_tlb (r : Csr) (v : Word) (s : State) : (writeCsr r v s).tlb = s.tlb := rfl
@[simp] theorem writeCsr_rr (r : Csr) (v : Word) (s : State) : (writeCsr r v s).rr = s.rr := rfl
@[simp] theorem writeCsr_out (r : Csr) (v : Word) (s : State) : (writeCsr r v s).out = undriven s.fresh := rfl
@[simp] theorem writeCsr_mem (r : Csr) (v : Word) (s : State) : (writeCsr r v s).mem = s.mem := rfl
@[simp] theorem writeCsr_inputs (r : Csr) (v : Word) (s : State) : (writeCsr r v s).inputs = s.inputs := rfl
@[simp] theorem writeCsr_fresh (r : Csr) (v : Word) (s : State) : (writeCsr r v s).fresh = s.fresh + 1 := rfl

/-! ### `resolveFault` -/

@[simp] theorem resolveFault_cfg (q : Reason) (rs : List DWord) (s : State) : (resolveFault q rs s).cfg = s.cfg := rfl
@[simp] theorem resolveFault_cp0 (q : Reason) (rs : List DWord) (s : State) : (resolveFault q rs s).cp0 = s.cp0 := rfl
@[simp] theorem resolveFault_trapPending (q : Reason) (rs : List DWord) (s : State) : (resolveFault q rs s).trapPending = s.trapPending := rfl
@[simp] theorem resolveFault_trapTarget (q : Reason) (rs : List DWord) (s : State) : (resolveFault q rs s).trapTarget = s.trapTarget := rfl
@[simp] theorem resolveFault_fatal (q : Reason) (rs : List DWord) (s : State) : (resolveFault q rs s).fatal = s.fatal := rfl
@[simp] theorem resolveFault_tlb (q : Reason) (rs : List DWord) (s : State) : (resolveFault q rs s).tlb = s.tlb := rfl
@[simp] theorem resolveFault_rr (q : Reason) (rs : List DWord) (s : State) : (resolveFault q rs s).rr = s.rr := rfl
@[simp] theorem resolveFault_out (q : Reason) (rs : List DWord) (s : State) : (resolveFault q rs s).out = 
      { undriven s.fresh with resOk := false, resolveReason := reasonCode q, memReads := rs } := rfl
@[simp] theorem resolveFault_mem (q : Reason) (rs : List DWord) (s : State) : (resolveFault q rs s).mem = s.mem := rfl
@[simp] theorem resolveFault_inputs (q : Reason) (rs : List DWord) (s : State) : (resolveFault q rs s).inputs = s.inputs := rfl
@[simp] theorem resolveFault_fresh (q : Reason) (rs : List DWord) (s : State) : (resolveFault q rs s).fresh = s.fresh + 1 := rfl

/-! ### `resolveOk` -/

@[simp] theorem resolveOk_cfg (e : TlbEntry) (va : DWord) (rs : List DWord) (s : State) : (resolveOk e va rs s).cfg = s.cfg := rfl
@[simp] theorem resolveOk_cp0 (e : TlbEntry) (va : DWord) (rs : List DWord) (s : State) : (resolveOk e va rs s).cp0 = s.cp0 := rfl
@[simp] theorem resolveOk_trapPending (e : TlbEntry) (va : DWord) (rs : List DWord) (s : State) : (resolveOk e va rs s).trapPending = s.trapPending := rfl
@[simp] theorem resolveOk_trapTarget (e : TlbEntry) (va : DWord) (rs : List DWord) (s : State) : (resolveOk e va rs s).trapTarget = s.trapTarget := rfl
@[simp] theorem resolveOk_fatal (e : TlbEntry) (va : DWord) (rs : List DWord) (s : State) : (resolveOk e va rs s).fatal = s.fatal := rfl
@[simp] theorem resolveOk_tlb (e : TlbEntry) (va : DWord) (rs : List DWord) (s : State) : (resolveOk e va rs s).tlb = s.tlb := rfl
@[simp] theorem resolveOk_rr (e : TlbEntry) (va : DWord) (rs : List DWord) (s : State) : (resolveOk e va rs s).rr = s.rr := rfl
@[simp] theorem resolveOk_out (e : TlbEntry) (va : DWord) (rs : List DWord) (s : State) : (resolveOk e va rs s).out = 
      { undriven s.fresh with
        resOk := true, resEntry := e, resPa := physAddr e va, resolveReason := 0, memReads := rs } := rfl
@[simp] theorem resolveOk_mem (e : TlbEntry) (va : DWord) (rs : List DWord) (s : State) : (resolveOk e va rs s).mem = s.mem := rfl
@[simp] theorem resolveOk_inputs (e : TlbEntry) (va : DWord) (rs : List DWord) (s : State) : (resolveOk e va rs s).inputs = s.inputs := rfl
@[simp] theorem resolveOk_fresh (e : TlbEntry) (va : DWord) (rs : List DWord) (s : State) : (resolveOk e va rs s).fresh = s.fresh + 1 := rfl

/-! ### `takeException` (its `cp0` is in Laws/Traps.lean) -/

@[simp] theorem takeException_cfg (exc : BitVec 5) (badva pc : Word) (ds : Bool) (s : State) :
    (takeException exc badva pc ds s).cfg = s.cfg := rfl
@[simp] theorem takeException_trapPending (exc : BitVec 5) (badva pc : Word) (ds : Bool) (s : State) :
    (takeException exc badva pc ds s).trapPending = true := rfl
@[simp] theorem takeException_trapTarget (exc : BitVec 5) (badva pc : Word) (ds : Bool) (s : State) :
    (takeException exc badva pc ds s).trapTarget = 
      trapBase s.cp0 + if statusEXL s.cp0.status then offGeneral else trapOffset s.cp0 exc := rfl
@[simp] theorem takeException_fatal (exc : BitVec 5) (badva pc : Word) (ds : Bool) (s : State) :
    (takeException exc badva pc ds s).fatal = s.fatal := rfl
@[simp] theorem takeException_tlb (exc : BitVec 5) (badva pc : Word) (ds : Bool) (s : State) :
    (takeException exc badva pc ds s).tlb = s.tlb := rfl
@[simp] theorem takeException_rr (exc : BitVec 5) (badva pc : Word) (ds : Bool) (s : State) :
    (takeException exc badva pc ds s).rr = s.rr := rfl
@[simp] theorem takeException_out (exc : BitVec 5) (badva pc : Word) (ds : Bool) (s : State) :
    (takeException exc badva pc ds s).out = s.out := rfl
@[simp] theorem takeException_mem (exc : BitVec 5) (badva pc : Word) (ds : Bool) (s : State) :
    (takeException exc badva pc ds s).mem = s.mem := rfl
@[simp] theorem takeException_inputs (exc : BitVec 5) (badva pc : Word) (ds : Bool) (s : State) :
    (takeException exc badva pc ds s).inputs = s.inputs := rfl
@[simp] theorem takeException_fresh (exc : BitVec 5) (badva pc : Word) (ds : Bool) (s : State) :
    (takeException exc badva pc ds s).fresh = s.fresh := rfl

/-! ### The register bank -/

@[simp] theorem saveReturn_index (pc : Word) (ds : Bool) (b : Cp0) : (saveReturn pc ds b).index = b.index := rfl
@[simp] theorem saveReturn_random (pc : Word) (ds : Bool) (b : Cp0) : (saveReturn pc ds b).random = b.random := rfl
@[simp] theorem saveReturn_entryLo0 (pc : Word) (ds : Bool) (b : Cp0) : (saveReturn pc ds b).entryLo0 = b.entryLo0 := rfl
@[simp] theorem saveReturn_entryLo1 (pc : Word) (ds : Bool) (b : Cp0) : (saveReturn pc ds b).entryLo1 = b.entryLo1 := rfl
@[simp] theorem saveReturn_context (pc : Word) (ds : Bool) (b : Cp0) : (saveReturn pc ds b).context = b.context := rfl
@[simp] theorem saveReturn_pageMask (pc : Word) (ds : Bool) (b : Cp0) : (saveReturn pc ds b).pageMask = b.pageMask := rfl
@[simp] theorem saveReturn_wired (pc : Word) (ds : Bool) (b : Cp0) : (saveReturn pc ds b).wired = b.wired := rfl
@[simp] theorem saveReturn_badVAddr (pc : Word) (ds : Bool) (b : Cp0) : (saveReturn pc ds b).badVAddr = b.badVAddr := rfl
@[simp] theorem saveReturn_count (pc : Word) (ds : Bool) (b : Cp0) : (saveReturn pc ds b).count = b.count := rfl
@[simp] theorem saveReturn_entryHi (pc : Word) (ds : Bool) (b : Cp0) : (saveReturn pc ds b).entryHi = b.entryHi := rfl
@[simp] theorem saveReturn_compare (pc : Word) (ds : Bool) (b : Cp0) : (saveReturn pc ds b).compare = b.compare := rfl
@[simp] theorem saveReturn_status (pc : Word) (ds : Bool) (b : Cp0) : (saveReturn pc ds b).status = b.status := rfl
@[simp] theorem saveReturn_cause (pc : Word) (ds : Bool) (b : Cp0) : (saveReturn pc ds b).cause = setCauseBD b.cause ds := rfl
@[simp] theorem saveReturn_epc (pc : Word) (ds : Bool) (b : Cp0) : (saveReturn pc ds b).epc = if ds then pc - 4 else pc := rfl
@[simp] theorem saveReturn_prid (pc : Word) (ds : Bool) (b : Cp0) : (saveReturn pc ds b).prid = b.prid := rfl
@[simp] theorem saveReturn_ebase (pc : Word) (ds : Bool) (b : Cp0) : (saveReturn pc ds b).ebase = b.ebase := rfl
@[simp] theorem saveReturn_config0 (pc : Word) (ds : Bool) (b : Cp0) : (saveReturn pc ds b).config0 = b.config0 := rfl
@[simp] theorem saveReturn_config1 (pc : Word) (ds : Bool) (b : Cp0) : (saveReturn pc ds b).config1 = b.config1 := rfl
@[simp] theorem saveReturn_tagLo (pc : Word) (ds : Bool) (b : Cp0) : (saveReturn pc ds b).tagLo = b.tagLo := rfl
@[simp] theorem saveReturn_tagHi (pc : Word) (ds : Bool) (b : Cp0) : (saveReturn pc ds b).tagHi = b.tagHi := rfl
@[simp] theorem saveReturn_errorEpc (pc : Word) (ds : Bool) (b : Cp0) : (saveReturn pc ds b).errorEpc = b.errorEpc := rfl

@[simp] theorem tick_index (c : Config) (ext : BitVec 5) (b : Cp0) : (tick c ext b).index = b.index := rfl
@[simp] theorem tick_random (c : Config) (ext : BitVec 5) (b : Cp0) : (tick c ext b).random = randomNext c b.random b.wired := rfl
@[simp] theorem tick_entryLo0 (c : Config) (ext : BitVec 5) (b : Cp0) : (tick c ext b).entryLo0 = b.entryLo0 := rfl
@[simp] theorem tick_entryLo1 (c : Config) (ext : BitVec 5) (b : Cp0) : (tick c ext b).entryLo1 = b.entryLo1 := rfl
@[simp] theorem tick_context (c : Config) (ext : BitVec 5) (b : Cp0) : (tick c ext b).context = b.context := rfl
@[simp] theorem tick_pageMask (c : Config) (ext : BitVec 5) (b : Cp0) : (tick c ext b).pageMask = b.pageMask := rfl
@[simp] theorem tick_wired (c : Config) (ext : BitVec 5) (b : Cp0) : (tick c ext b).wired = b.wired := rfl
@[simp] theorem tick_badVAddr (c : Config) (ext : BitVec 5) (b : Cp0) : (tick c ext b).badVAddr = b.badVAddr := rfl
@[simp] theorem tick_count (c : Config) (ext : BitVec 5) (b : Cp0) : (tick c ext b).count = b.count + 1 := rfl
@[simp] theorem tick_entryHi (c : Config) (ext : BitVec 5) (b : Cp0) : (tick c ext b).entryHi = b.entryHi := rfl
@[simp] theorem tick_compare (c : Config) (ext : BitVec 5) (b : Cp0) : (tick c ext b).compare = b.compare := rfl
@[simp] theorem tick_status (c : Config) (ext : BitVec 5) (b : Cp0) : (tick c ext b).status = b.status := rfl
@[simp] theorem tick_cause (c : Config) (ext : BitVec 5) (b : Cp0) : (tick c ext b).cause = 
      if b.count + 1 == b.compare then setCauseTimer (setCauseLines b.cause ext) true else setCauseLines b.cause ext := rfl
@[simp] theorem tick_epc (c : Config) (ext : BitVec 5) (b : Cp0) : (tick c ext b).epc = b.epc := rfl
@[simp] theorem tick_prid (c : Config) (ext : BitVec 5) (b : Cp0) : (tick c ext b).prid = b.prid := rfl
@[simp] theorem tick_ebase (c : Config) (ext : BitVec 5) (b : Cp0) : (tick c ext b).ebase = b.ebase := rfl
@[simp] theorem tick_config0 (c : Config) (ext : BitVec 5) (b : Cp0) : (tick c ext b).config0 = b.config0 := rfl
@[simp] theorem tick_config1 (c : Config) (ext : BitVec 5) (b : Cp0) : (tick c ext b).config1 = b.config1 := rfl
@[simp] theorem tick_tagLo (c : Config) (ext : BitVec 5) (b : Cp0) : (tick c ext b).tagLo = b.tagLo := rfl
@[simp] theorem tick_tagHi (c : Config) (ext : BitVec 5) (b : Cp0) : (tick c ext b).tagHi = b.tagHi := rfl
@[simp] theorem tick_errorEpc (c : Config) (ext : BitVec 5) (b : Cp0) : (tick c ext b).errorEpc = b.errorEpc := rfl

@[simp] theorem recordFaultAddress_index (exc : BitVec 5) (badva : Word) (b : Cp0) :
    (recordFaultAddress exc badva b).index = b.index := by
  unfold recordFaultAddress; split <;> rfl
@[simp] theorem recordFaultAddress_random (exc : BitVec 5) (badva : Word) (b : Cp0) :
    (recordFaultAddress exc badva b).random = b.random := by
  unfold recordFaultAddress; split <;> rfl
@[simp] theorem recordFaultAddress_entryLo0 (exc : BitVec 5) (badva : Word) (b : Cp0) :
    (recordFaultAddress exc badva b).entryLo0 = b.entryLo0 := by
  unfold recordFaultAddress; split <;> rfl
@[simp] theorem recordFaultAddress_entryLo1 (exc : BitVec 5) (badva : Word) (b : Cp0) :
    (recordFaultAddress exc badva b).entryLo1 = b.entryLo1 := by
  unfold recordFaultAddress; split <;> rfl
@[simp] theorem recordFaultAddress_context (exc : BitVec 5) (badva : Word) (b : Cp0) :
    (recordFaultAddress exc badva b).context = if recordsAddress exc then setContextBadVPN2 b.context (badVpn2 badva) else b.context := by
  unfold recordFaultAddress; split <;> rfl
@[simp] theorem recordFaultAddress_pageMask (exc : BitVec 5) (badva : Word) (b : Cp0) :
    (recordFaultAddress exc badva b).pageMask = b.pageMask := by
  unfold recordFaultAddress; split <;> rfl
@[simp] theorem recordFaultAddress_wired (exc : BitVec 5) (badva : Word) (b : Cp0) :
    (recordFaultAddress exc badva b).wired = b.wired := by
  unfold recordFaultAddress; split <;> rfl
@[simp] theorem recordFaultAddress_badVAddr (exc : BitVec 5) (badva : Word) (b : Cp0) :
    (recordFaultAddress exc badva b).badVAddr = if recordsAddress exc then badva else b.badVAddr := by
  unfold recordFaultAddress; split <;> rfl
@[simp] theorem recordFaultAddress_count (exc : BitVec 5) (badva : Word) (b : Cp0) :
    (recordFaultAddress exc badva b).count = b.count := by
  unfold recordFaultAddress; split <;> rfl
@[simp] theorem recordFaultAddress_entryHi (exc : BitVec 5) (badva : Word) (b : Cp0) :
    (recordFaultAddress exc badva b).entryHi = b.entryHi := by
  unfold recordFaultAddress; split <;> rfl
@[simp] theorem recordFaultAddress_compare (exc : BitVec 5) (badva : Word) (b : Cp0) :
    (recordFaultAddress exc badva b).compare = b.compare := by
  unfold recordFaultAddress; split <;> rfl
@[simp] theorem recordFaultAddress_status (exc : BitVec 5) (badva : Word) (b : Cp0) :
    (recordFaultAddress exc badva b).status = b.status := by
  unfold recordFaultAddress; split <;> rfl
@[simp] theorem recordFaultAddress_cause (exc : BitVec 5) (badva : Word) (b : Cp0) :
    (recordFaultAddress exc badva b).cause = b.cause := by
  unfold recordFaultAddress; split <;> rfl
@[simp] theorem recordFaultAddress_epc (exc : BitVec 5) (badva : Word) (b : Cp0) :
    (recordFaultAddress exc badva b).epc = b.epc := by
  unfold recordFaultAddress; split <;> rfl
@[simp] theorem recordFaultAddress_prid (exc : BitVec 5) (badva : Word) (b : Cp0) :
    (recordFaultAddress exc badva b).prid = b.prid := by
  unfold recordFaultAddress; split <;> rfl
@[simp] theorem recordFaultAddress_ebase (exc : BitVec 5) (badva : Word) (b : Cp0) :
    (recordFaultAddress exc badva b).ebase = b.ebase := by
  unfold recordFaultAddress; split <;> rfl
@[simp] theorem recordFaultAddress_config0 (exc : BitVec 5) (badva : Word) (b : Cp0) :
    (recordFaultAddress exc badva b).config0 = b.config0 := by
  unfold recordFaultAddress; split <;> rfl
@[simp] theorem recordFaultAddress_config1 (exc : BitVec 5) (badva : Word) (b : Cp0) :
    (recordFaultAddress exc badva b).config1 = b.config1 := by
  unfold recordFaultAddress; split <;> rfl
@[simp] theorem recordFaultAddress_tagLo (exc : BitVec 5) (badva : Word) (b : Cp0) :
    (recordFaultAddress exc badva b).tagLo = b.tagLo := by
  unfold recordFaultAddress; split <;> rfl
@[simp] theorem recordFaultAddress_tagHi (exc : BitVec 5) (badva : Word) (b : Cp0) :
    (recordFaultAddress exc badva b).tagHi = b.tagHi := by
  unfold recordFaultAddress; split <;> rfl
@[simp] theorem recordFaultAddress_errorEpc (exc : BitVec 5) (badva : Word) (b : Cp0) :
    (recordFaultAddress exc badva b).errorEpc = b.errorEpc := by
  unfold recordFaultAddress; split <;> rfl

@[simp] theorem returnFromException_index (b : Cp0) : (returnFromException b).2.index = b.index := by
  unfold returnFromException; split <;> rfl
@[simp] theorem returnFromException_random (b : Cp0) : (returnFromException b).2.random = b.random := by
  unfold returnFromException; split <;> rfl
@[simp] theorem returnFromException_entryLo0 (b : Cp0) : (returnFromException b).2.entryLo0 = b.entryLo0 := by
  unfold returnFromException; split <;> rfl
@[simp] theorem returnFromException_entryLo1 (b : Cp0) : (returnFromException b).2.entryLo1 = b.entryLo1 := by
  unfold returnFromException; split <;> rfl
@[simp] theorem returnFromException_context (b : Cp0) : (returnFromException b).2.context = b.context := by
  unfold returnFromException; split <;> rfl
@[simp] theorem returnFromException_pageMask (b : Cp0) : (returnFromException b).2.pageMask = b.pageMask := by
  unfold returnFromException; split <;> rfl
@[simp] theorem returnFromException_wired (b : Cp0) : (returnFromException b).2.wired = b.wired := by
  unfold returnFromException; split <;> rfl
@[simp] theorem returnFromException_badVAddr (b : Cp0) : (returnFromException b).2.badVAddr = b.badVAddr := by
  unfold returnFromException; split <;> rfl
@[simp] theorem returnFromException_count (b : Cp0) : (returnFromException b).2.count = b.count := by
  unfold returnFromException; split <;> rfl
@[simp] theorem returnFromException_entryHi (b : Cp0) : (returnFromException b).2.entryHi = b.entryHi := by
  unfold returnFromException; split <;> rfl
@[simp] theorem returnFromException_compare (b : Cp0) : (returnFromException b).2.compare = b.compare := by
  unfold returnFromException; split <;> rfl
@[simp] theorem returnFromException_status (b : Cp0) : (returnFromException b).2.status =
    if statusERL b.status then setStatusERL b.status false else setStatusEXL b.status false := by
  unfold returnFromException; split <;> rfl
@[simp] theorem returnFromException_cause (b : Cp0) : (returnFromException b).2.cause = b.cause := by
  unfold returnFromException; split <;> rfl
@[simp] theorem returnFromException_epc (b : Cp0) : (returnFromException b).2.epc = b.epc := by
  unfold returnFromException; split <;> rfl
@[simp] theorem returnFromException_prid (b : Cp0) : (returnFromException b).2.prid = b.prid := by
  unfold returnFromException; split <;> rfl
@[simp] theorem returnFromException_ebase (b : Cp0) : (returnFromException b).2.ebase = b.ebase := by
  unfold returnFromException; split <;> rfl
@[simp] theorem returnFromException_config0 (b : Cp0) : (returnFromException b).2.config0 = b.config0 := by
  unfold returnFromException; split <;> rfl
@[simp] theorem returnFromException_config1 (b : Cp0) : (returnFromException b).2.config1 = b.config1 := by
  unfold returnFromException; split <;> rfl
@[simp] theorem returnFromException_tagLo (b : Cp0) : (returnFromException b).2.tagLo = b.tagLo := by
  unfold returnFromException; split <;> rfl
@[simp] theorem returnFromException_tagHi (b : Cp0) : (returnFromException b).2.tagHi = b.tagHi := by
  unfold returnFromException; split <;> rfl
@[simp] theorem returnFromException_errorEpc (b : Cp0) : (returnFromException b).2.errorEpc = b.errorEpc := by
  unfold returnFromException; split <;> rfl

@[simp] theorem returnFromException_target (b : Cp0) :
    (returnFromException b).1 = if statusERL b.status then b.errorEpc else b.epc := by
  unfold returnFromException; split <;> rfl

/-- A register just set reads as it was set. -/
@[simp] theorem getCsr_setCsr (b : Cp0) (v : Word) (r : Csr) : getCsr (setCsr b v r) r = v := by
  cases r <;> rfl

/-- Setting one register leaves every other as it was. -/
theorem getCsr_setCsr_of_ne (b : Cp0) (v : Word) (r q : Csr) (h : q ≠ r) : getCsr (setCsr b v r) q = getCsr b q := by
  cases r <;> cases q <;> first | rfl | exact absurd rfl h

/-- Two banks that agree in every register are one bank. -/
theorem Cp0.eq_of_getCsr (a b : Cp0) (h : ∀ r, getCsr a r = getCsr b r) : a = b := by
  obtain ⟨_, _, _, _, _, _, _, _, _, _, _, _, _, _, _, _, _, _, _, _, _⟩ := a
  obtain ⟨_, _, _, _, _, _, _, _, _, _, _, _, _, _, _, _, _, _, _, _, _⟩ := b
  simp only [Cp0.mk.injEq]
  exact ⟨h .index, h .random, h .entryLo0, h .entryLo1, h .context, h .pageMask, h .wired, h .badVAddr, h .count, h .entryHi, h .compare, h .status, h .cause, h .epc, h .prid, h .ebase, h .config0, h .config1, h .tagLo, h .tagHi, h .errorEpc⟩

end Sys2Proof.Machine
end

