-- ==== Sys2Proof/Laws/Fields.lean ====
section
/-! SUPPORT. Laws/Fields.lean: what the field updates of `Status`, `Cause` and `Context` do, as masks and bit by bit. -/

namespace Sys2Proof.Machine

/-- What `insertField` does to each bit: inside the field the value's bit, outside the old bit. -/
theorem getLsbD_insertField (w : Word) (lo : Nat) {len : Nat} (v : BitVec len) (i : Nat) (h : lo + len ≤ 32) :
    (insertField w lo v).getLsbD i = if lo ≤ i ∧ i < lo + len then v.getLsbD (i - lo) else w.getLsbD i := by
  simp only [insertField, BitVec.getLsbD_or, BitVec.getLsbD_and, BitVec.getLsbD_not, BitVec.getLsbD_shiftLeft,
    BitVec.getLsbD_setWidth, BitVec.getLsbD_allOnes]
  by_cases hi : i < 32
  · by_cases h1 : lo ≤ i
    · by_cases h2 : i < lo + len
      · have : i - lo < len := by omega
        have h4 : i - lo < 32 := by omega
        have h3 : ¬ i < lo := by omega
        simp [hi, h1, h2, this, h4, h3]
      · have h5 : v.getLsbD (i - lo) = false := BitVec.getLsbD_of_ge v _ (by omega)
        have h4 : i - lo < 32 := by omega
        have h3 : ¬ i < lo := by omega
        have h6 : ¬ (i - lo < len) := by omega
        simp [hi, h1, h2, h3, h4, h5, h6]
    · have h3 : i < lo := by omega
      simp [hi, h1, h3]
  · have h3 : ¬ (lo ≤ i ∧ i < lo + len) := by omega
    have : w.getLsbD i = false := BitVec.getLsbD_of_ge w i (by omega)
    simp [hi, h3, this]

/-- What `insertBit` does to each bit. -/
theorem getLsbD_insertBit (w : Word) (n : Nat) (b : Bool) (i : Nat) (h : n < 32) :
    (insertBit w n b).getLsbD i = if i = n then b else w.getLsbD i := by
  rw [insertBit, getLsbD_insertField _ _ _ _ (by omega)]
  by_cases hi : i = n
  · subst hi; simp
  · rw [if_neg (by omega), if_neg hi]

theorem setStatusEXL_true (w : Word) : setStatusEXL w true = w ||| 0x00000002#32 := by
  have : ∀ i, i < 32 → (0x00000002#32).getLsbD i = decide (i = 1) := by decide
  apply BitVec.eq_of_getLsbD_eq
  intro i hi
  rw [setStatusEXL, getLsbD_insertBit _ _ _ _ (by omega), BitVec.getLsbD_or, this i hi]
  by_cases h : i = 1 <;> simp [h]

theorem setStatusEXL_false (w : Word) : setStatusEXL w false = w &&& 0xFFFFFFFD#32 := by
  have : ∀ i, i < 32 → (0xFFFFFFFD#32).getLsbD i = !decide (i = 1) := by decide
  apply BitVec.eq_of_getLsbD_eq
  intro i hi
  rw [setStatusEXL, getLsbD_insertBit _ _ _ _ (by omega), BitVec.getLsbD_and, this i hi]
  by_cases h : i = 1 <;> simp [h]

theorem setStatusERL_false (w : Word) : setStatusERL w false = w &&& 0xFFFFFFFB#32 := by
  have : ∀ i, i < 32 → (0xFFFFFFFB#32).getLsbD i = !decide (i = 2) := by decide
  apply BitVec.eq_of_getLsbD_eq
  intro i hi
  rw [setStatusERL, getLsbD_insertBit _ _ _ _ (by omega), BitVec.getLsbD_and, this i hi]
  by_cases h : i = 2 <;> simp [h]

theorem setCauseTimer_true (w : Word) : setCauseTimer w true = w ||| 0x00008000#32 := by
  have : ∀ i, i < 32 → (0x00008000#32).getLsbD i = decide (i = 15) := by decide
  apply BitVec.eq_of_getLsbD_eq
  intro i hi
  rw [setCauseTimer, getLsbD_insertBit _ _ _ _ (by omega), BitVec.getLsbD_or, this i hi]
  by_cases h : i = 15 <;> simp [h]

theorem setCauseTimer_false (w : Word) : setCauseTimer w false = w &&& 0xFFFF7FFF#32 := by
  have : ∀ i, i < 32 → (0xFFFF7FFF#32).getLsbD i = !decide (i = 15) := by decide
  apply BitVec.eq_of_getLsbD_eq
  intro i hi
  rw [setCauseTimer, getLsbD_insertBit _ _ _ _ (by omega), BitVec.getLsbD_and, this i hi]
  by_cases h : i = 15 <;> simp [h]

theorem setCauseLines_eq (w : Word) (ext : BitVec 5) :
    setCauseLines w ext = (w &&& 0xFFFF83FF#32) ||| (ext.setWidth 32 <<< 10) := by
  rw [setCauseLines, insertField]
  rfl

theorem setCauseExcCode_eq (w : Word) (exc : BitVec 5) :
    setCauseExcCode w exc = (w &&& 0xFFFFFF83#32) ||| (exc.setWidth 32 <<< 2) := by
  rw [setCauseExcCode, insertField]
  rfl

theorem setCauseBD_eq (w : Word) (ds : Bool) :
    setCauseBD w ds = (w &&& 0x7FFFFFFF#32) ||| (if ds then 0x80000000#32 else 0#32) := by
  cases ds <;> rfl

theorem setContextBadVPN2_eq (w badva : Word) :
    setContextBadVPN2 w (badVpn2 badva) = (w &&& 0xFF80000F#32) ||| ((badva >>> 13) <<< 4) := by
  apply BitVec.eq_of_getLsbD_eq
  intro i hi
  have : ∀ i, i < 32 → (0xFF80000F#32).getLsbD i = !decide (4 ≤ i ∧ i < 4 + 19) := by decide
  rw [setContextBadVPN2, getLsbD_insertField _ _ _ _ (by omega), BitVec.getLsbD_or, BitVec.getLsbD_and,
    this i hi]
  simp only [badVpn2, BitVec.getLsbD_extractLsb', BitVec.getLsbD_shiftLeft, BitVec.getLsbD_ushiftRight]
  by_cases h1 : 4 ≤ i
  · by_cases h2 : i < 4 + 19
    · have h3 : ¬ i < 4 := by omega
      have h4 : i - 4 < 19 := by omega
      simp [h1, h2, h3, h4, hi]
    · have h3 : ¬ i < 4 := by omega
      have h5 : badva.getLsbD (13 + (i - 4)) = false := BitVec.getLsbD_of_ge _ _ (by omega)
      simp [h1, h2, h3, h5, hi]
  · have h3 : i < 4 := by omega
    simp [h1, h3, hi]

/-- A word whose bits outside a mask are 0 takes a masked write as the masked value. -/
theorem maskedWrite_of_reserved (mask old v : Word) (h : old &&& ~~~mask = 0) : maskedWrite mask old v = v &&& mask := by
  rw [maskedWrite, h]; simp

/-- A masked write under the full mask stores the value. -/
theorem maskedWrite_full (old v : Word) : maskedWrite 0xFFFFFFFF#32 old v = v := by
  have h : (0xFFFFFFFF#32 : Word) = BitVec.allOnes 32 := by decide
  rw [maskedWrite, h, BitVec.not_allOnes, BitVec.and_zero, BitVec.zero_or, BitVec.and_allOnes]

/-- A masked write under the empty mask stores nothing. -/
theorem maskedWrite_zero (old v : Word) : maskedWrite 0x00000000#32 old v = old := by
  have h : ~~~(0x00000000#32 : Word) = BitVec.allOnes 32 := by decide
  rw [maskedWrite, h, BitVec.and_allOnes, BitVec.and_zero, BitVec.or_zero]

/-- Which bits a masked write takes. -/
theorem getLsbD_maskedWrite (mask old v : Word) (i : Nat) :
    (maskedWrite mask old v).getLsbD i = if mask.getLsbD i then v.getLsbD i else old.getLsbD i := by
  simp only [maskedWrite, BitVec.getLsbD_or, BitVec.getLsbD_and, BitVec.getLsbD_not]
  by_cases hi : i < 32
  · cases hm : mask.getLsbD i <;> simp [hi]
  · have h1 : mask.getLsbD i = false := BitVec.getLsbD_of_ge _ _ (by omega)
    have h2 : old.getLsbD i = false := BitVec.getLsbD_of_ge _ _ (by omega)
    simp [h1, h2, hi]

end Sys2Proof.Machine
end

