-- ==== Sys2Proof/Laws/Traps.lean ====
section
/-! SUPPORT. Laws/Traps.lean: what taking an exception does to the register bank, case by case, and what the interrupt and
privilege predicates say bit by bit. -/

namespace Sys2Proof.Machine

/-- The register bank after an exception is taken. -/
theorem takeException_cp0 (exc : BitVec 5) (badva pc : Word) (ds : Bool) (s : State) :
    (takeException exc badva pc ds s).cp0 = recordFaultAddress exc badva
      { (if statusEXL s.cp0.status then s.cp0 else saveReturn pc ds s.cp0) with
        cause := setCauseExcCode (if statusEXL s.cp0.status then s.cp0 else saveReturn pc ds s.cp0).cause exc
        status := setStatusEXL (if statusEXL s.cp0.status then s.cp0 else saveReturn pc ds s.cp0).status true } := rfl

/-- Taking an exception sets `EXL` and leaves the rest of `Status`. -/
theorem takeException_status (exc : BitVec 5) (badva pc : Word) (ds : Bool) (s : State) :
    (takeException exc badva pc ds s).cp0.status = s.cp0.status ||| 0x00000002#32 := by
  rw [takeException_cp0]
  split <;> simp [setStatusEXL_true]

/-- Taking an exception saves the return address only from normal level. -/
theorem takeException_epc (exc : BitVec 5) (badva pc : Word) (ds : Bool) (s : State) :
    (takeException exc badva pc ds s).cp0.epc =
      if statusEXL s.cp0.status then s.cp0.epc else if ds then pc - 4 else pc := by
  rw [takeException_cp0]
  split <;> simp

/-- Taking an exception records the kind, and the delay-slot flag only from normal level. -/
theorem takeException_cause (exc : BitVec 5) (badva pc : Word) (ds : Bool) (s : State) :
    (takeException exc badva pc ds s).cp0.cause = setCauseExcCode
      (if statusEXL s.cp0.status then s.cp0.cause else setCauseBD s.cp0.cause ds) exc := by
  rw [takeException_cp0]
  split <;> simp

/-- Taking an exception records the faulting address for kinds 1 to 5. -/
theorem takeException_badVAddr (exc : BitVec 5) (badva pc : Word) (ds : Bool) (s : State) :
    (takeException exc badva pc ds s).cp0.badVAddr = if recordsAddress exc then badva else s.cp0.badVAddr := by
  rw [takeException_cp0]
  split <;> simp

/-- Taking an exception records the faulting page number for kinds 1 to 5. -/
theorem takeException_context (exc : BitVec 5) (badva pc : Word) (ds : Bool) (s : State) :
    (takeException exc badva pc ds s).cp0.context =
      if recordsAddress exc then setContextBadVPN2 s.cp0.context (badVpn2 badva) else s.cp0.context := by
  rw [takeException_cp0]
  split <;> simp

/-- Taking an exception leaves every other register of the bank. -/
theorem takeException_frame (exc : BitVec 5) (badva pc : Word) (ds : Bool) (s : State) (r : Csr)
    (h : r ≠ .epc ∧ r ≠ .cause ∧ r ≠ .status ∧ r ≠ .badVAddr ∧ r ≠ .context) :
    getCsr (takeException exc badva pc ds s).cp0 r = getCsr s.cp0 r := by
  rw [takeException_cp0]
  obtain ⟨h1, h2, h3, h4, h5⟩ := h
  cases r <;> first | contradiction | (split <;> simp [getCsr])

/-- The kinds that record an address are 1 to 5. -/
theorem recordsAddress_iff (exc : BitVec 5) : recordsAddress exc = true ↔ 1 ≤ exc.toNat ∧ exc.toNat ≤ 5 := by
  revert exc; decide

/-- Interrupt delivery, field by field (42_exception_ops.md R131). -/
theorem intDeliverable_iff (status cause : Word) : intDeliverable status cause = true ↔
    status.getLsbD 0 = true ∧ status.getLsbD 1 = false ∧ status.getLsbD 2 = false ∧
      cause.extractLsb' 8 8 &&& status.extractLsb' 8 8 ≠ 0#8 := by
  simp [intDeliverable, statusIE, statusEXL, statusERL, causeIP, statusIM, and_assoc]

/-- The privilege level is one of two. -/
theorem privLevel_eq_zero_iff (status : Word) : privLevel status = 0#1 ↔
    status.getLsbD 1 = true ∨ status.getLsbD 2 = true ∨ status.extractLsb' 3 2 = 0#2 := by
  have hc : (statusEXL status || statusERL status || statusKSU status == 0#2) = true ↔
      status.getLsbD 1 = true ∨ status.getLsbD 2 = true ∨ status.extractLsb' 3 2 = 0#2 := by
    simp [statusEXL, statusERL, statusKSU, or_assoc]
  rw [← hc]
  unfold privLevel
  by_cases h : (statusEXL status || statusERL status || statusKSU status == 0#2) = true
  · rw [if_pos h]
    exact ⟨fun _ => h, fun _ => rfl⟩
  · rw [if_neg h]
    exact ⟨fun e => absurd e (by decide), fun e => absurd e h⟩

/-- The two updates of `Cause` that a trap from normal level makes, as one mask. -/
theorem setCauseExcCode_setCauseBD (w : Word) (ds : Bool) (x : BitVec 5) :
    setCauseExcCode (setCauseBD w ds) x = (w &&& 0x7FFFFF83#32) ||| (if ds then 0x80000000#32 else 0#32) ||| (x.setWidth 32 <<< 2) := by
  apply BitVec.eq_of_getLsbD_eq
  intro i hi
  rw [setCauseExcCode, getLsbD_insertField _ _ _ _ (by omega), setCauseBD, getLsbD_insertBit _ _ _ _ (by omega)]
  have h1 : ∀ i, i < 32 → (0x7FFFFF83#32).getLsbD i = !decide (i = 31 ∨ (2 ≤ i ∧ i < 2 + 5)) := by decide
  have h2 : ∀ i, i < 32 → (0x80000000#32).getLsbD i = decide (i = 31) := by decide
  have h3 : (if ds then 0x80000000#32 else 0#32).getLsbD i = (ds && decide (i = 31)) := by
    cases ds
    · simp
    · simp [h2 i hi]
  rw [BitVec.getLsbD_or, BitVec.getLsbD_or, BitVec.getLsbD_and, h1 i hi, h3, BitVec.getLsbD_shiftLeft, BitVec.getLsbD_setWidth]
  by_cases c1 : 2 ≤ i ∧ i < 2 + 5
  · rw [if_pos c1]
    have : i ≠ 31 := by omega
    have h4 : ¬ i < 2 := by omega
    have h5 : i - 2 < 32 := by omega
    simp [c1, this, h4, h5]; intro; omega
  · rw [if_neg c1]
    by_cases c2 : i < 2
    · have : i ≠ 31 := by omega
      have h6 : ¬ (2 ≤ i) := by omega
      simp [c2, this, h6]
    · have : x.getLsbD (i-2) = false := BitVec.getLsbD_of_ge _ _ (by omega)
      have h6 : ¬ (i < 7) := by omega
      by_cases c3 : i = 31 <;> simp [this, c3, h6]

/-- The offset of an interrupt: 0x200 when `IV` is 1 and `BEV` is 0, else 0x180. -/
theorem trapOffset_int (b : Cp0) : trapOffset b excInt =
    if causeIV b.cause = true ∧ statusBEV b.status = false then offInt else offGeneral := by
  have h1 : (excInt == excTlbl || excInt == excTlbs) = false := by decide
  have h2 : (excInt == excInt) = true := by decide
  unfold trapOffset
  rw [h1, h2]
  cases causeIV b.cause <;> cases statusBEV b.status <;> rfl

/-- The target of an interrupt taken from normal level. -/
theorem trapTarget_int (b : Cp0) (h : statusEXL b.status = false) :
    (trapBase b + if statusEXL b.status then offGeneral else trapOffset b excInt) =
      if statusBEV b.status = true then 0xBFC00380#32
      else if causeIV b.cause = true then b.ebase + 0x200#32 else b.ebase + 0x180#32 := by
  rw [h, trapOffset_int, if_neg (by decide), trapBase]
  generalize statusBEV b.status = x
  generalize causeIV b.cause = y
  cases x <;> cases y <;> rfl

/-- `Cause` after the latching and the timer comparison of PRE_INSN. -/
theorem tick_cause_eq (c : Config) (ext : BitVec 5) (b : Cp0) : (tick c ext b).cause =
    if b.count + 1 = b.compare then ((b.cause &&& 0xFFFF83FF#32) ||| (ext.setWidth 32 <<< 10)) ||| 0x00008000#32
    else (b.cause &&& 0xFFFF83FF#32) ||| (ext.setWidth 32 <<< 10) := by
  rw [tick_cause, ← setCauseTimer_true, ← setCauseLines_eq]
  simp

/-- `RandomNext` as numbers (42_exception_ops.md R139). -/
theorem randomNext_eq (c : Config) (r w : Word) :
    randomNext c r w = if r.toNat ≤ w.toNat then c.topEntry else r - 1 := rfl

end Sys2Proof.Machine
end

