-- ==== Sys2Proof/Laws/Walk.lean ====
section
/-! SUPPORT. Laws/Walk.lean: the walker's addresses, entries and results as numbers, what one entry makes of a walk, and
everything a walk can do. -/

namespace Sys2Proof.Machine

/-- The three indices of a virtual address as numbers (20_memory.md R68). -/
theorem vpn_toNat (va : DWord) : (vpn va .level2).toNat = va.toNat / 2 ^ 30 % 512 ∧
    (vpn va .level1).toNat = va.toNat / 2 ^ 21 % 512 ∧ (vpn va .level0).toNat = va.toNat / 2 ^ 12 % 512 := by
  simp [vpn, BitVec.extractLsb'_toNat, Nat.shiftRight_eq_div_pow]

/-- The address of a frame as a number. -/
theorem frameAddr_toNat (f : BitVec 44) : (frameAddr f).toNat = f.toNat * 4096 := by
  have := f.isLt
  simp only [frameAddr, BitVec.toNat_shiftLeft, BitVec.toNat_setWidth, Nat.shiftLeft_eq]
  omega

/-- The walker's address of an entry is the table's frame and the index as a number (43_tlb_walker.md R156). -/
theorem pteAddr_frameAddr (f : BitVec 44) (idx : BitVec 9) :
    pteAddr (frameAddr f) idx = entryAddr f.toNat idx.toNat := by
  have h1 := f.isLt
  have h2 := idx.isLt
  apply BitVec.eq_of_toNat_eq
  simp only [pteAddr, entryAddr, BitVec.toNat_setWidth, BitVec.toNat_add, BitVec.toNat_mul, frameAddr_toNat,
    BitVec.toNat_ofNat]
  omega

/-- The frame number of an entry as a number (20_memory.md R71). -/
theorem ptePpn_toNat (c : Config) (pte : DWord) (h : c.sv39Ppn2Bits ≤ 26) : (ptePpn c pte).toNat = frameOf c pte := by
  have hle : 2 ^ (18 + c.sv39Ppn2Bits) ≤ 2 ^ 44 := Nat.pow_le_pow_right (by decide) (by omega)
  simp only [ptePpn, BitVec.toNat_setWidth, BitVec.extractLsb'_toNat, Nat.shiftRight_eq_div_pow, frameOf]
  exact Nat.mod_eq_of_lt (lt_of_lt_of_le (Nat.mod_lt _ (Nat.two_pow_pos _)) hle)

/-- The reserved bits of an entry are 0 exactly when it is small (20_memory.md R71). -/
theorem pteRes_eq_zero_iff (c : Config) (pte : DWord) : pteRes c pte = 0 ↔ pte.toNat < 2 ^ (28 + c.sv39Ppn2Bits) := by
  rw [← BitVec.toNat_inj, pteRes, BitVec.toNat_ushiftRight, Nat.shiftRight_eq_div_pow]
  simp [Nat.div_eq_zero_iff]

/-- A well-formed virtual address is the sign extension of its low 39 bits (20_memory.md R69). -/
theorem canonical_iff (va : DWord) : canonical va = true ↔ va = (va.extractLsb' 0 39).signExtend 64 := by
  have hall : ∀ i, i < 25 → (if va.getLsbD 38 then BitVec.allOnes 25 else 0#25).getLsbD i = va.getLsbD 38 := by
    intro i hi
    cases va.getLsbD 38
    · simp
    · rw [if_pos rfl, BitVec.getLsbD_allOnes]
      simpa using hi
  simp only [canonical, beq_iff_eq]
  constructor
  · intro h
    apply BitVec.eq_of_getLsbD_eq
    intro i hi
    rw [BitVec.getLsbD_signExtend]
    by_cases h39 : i < 39
    · simp [h39, hi]
    · have h1 := congrArg (fun x : BitVec 25 => x.getLsbD (i - 39)) h
      simp only [hall (i - 39) (by omega)] at h1
      have h2 : 39 + (i - 39) = i := by omega
      have h3 : i - 39 < 25 := by omega
      simp only [BitVec.getLsbD_extractLsb', h3, h2, decide_true, Bool.true_and] at h1
      rw [if_neg h39, BitVec.msb_eq_getLsbD_last, BitVec.getLsbD_extractLsb', h1]
      simp [hi]
  · intro h
    apply BitVec.eq_of_getLsbD_eq
    intro i hi
    rw [hall i hi]
    have h1 := congrArg (fun x : DWord => x.getLsbD (39 + i)) h
    have h2 : 39 + i < 64 := by omega
    have h3 : ¬ 39 + i < 39 := by omega
    simp only [BitVec.getLsbD_signExtend, h2, h3, decide_true, Bool.true_and, if_false, BitVec.msb_eq_getLsbD_last,
      BitVec.getLsbD_extractLsb'] at h1
    simp only [BitVec.getLsbD_extractLsb', hi, decide_true, Bool.true_and, h1]
    simp

/-- The three tests of an entry pass exactly when it is acceptable (43_tlb_walker.md R157). -/
theorem checkPte_eq_none_iff (c : Config) (pte : DWord) : checkPte c pte = none ↔ acceptable c pte := by
  rw [acceptable, ← pteRes_eq_zero_iff, checkPte]
  show _ ↔ pteV pte = true ∧ (pteW pte = true → pteR pte = true) ∧ _
  generalize pteV pte = v
  generalize pteR pte = r
  generalize pteW pte = w
  cases v <;> cases r <;> cases w <;> simp

/-- An entry that is not valid fails the first test. -/
theorem checkPte_invalid (c : Config) (pte : DWord) (h : pte.getLsbD 0 = false) :
    checkPte c pte = some .pteInvalid := by
  have hv : pteV pte = false := h
  simp [checkPte, hv]

/-- A valid entry that is writable and not readable fails the second test. -/
theorem checkPte_wNotR (c : Config) (pte : DWord) (hv : pte.getLsbD 0 = true) (hr : pte.getLsbD 1 = false)
    (hw : pte.getLsbD 2 = true) : checkPte c pte = some .pteWNotR := by
  have h0 : pteV pte = true := hv
  have h1 : pteR pte = false := hr
  have h2 : pteW pte = true := hw
  simp [checkPte, h0, h1, h2]

/-- An entry that passes the first two tests and has a reserved bit fails the third. -/
theorem checkPte_reserved (c : Config) (pte : DWord) (hv : pte.getLsbD 0 = true)
    (hw : pte.getLsbD 2 = true → pte.getLsbD 1 = true) (h : 2 ^ (28 + c.sv39Ppn2Bits) ≤ pte.toNat) :
    checkPte c pte = some .pteReserved := by
  have hres : pteRes c pte ≠ 0 := fun h0 => by
    have := (pteRes_eq_zero_iff c pte).mp h0
    omega
  have h0 : pteV pte = true := hv
  have h2 : (!pteR pte && pteW pte) = false := by
    have hw' : pteW pte = true → pteR pte = true := hw
    cases h1 : pteR pte <;> cases h2 : pteW pte <;> simp_all
  rw [checkPte, h0, h2]
  simpa using hres

/-! ## The walk, one entry at a time -/

/-- A walk that meets an address that does not answer ends there. -/
theorem walkLevels_readFail (c : Config) (m : Memory) (va : DWord) (l : Level) (rest : List Level) (a : PAddr)
    (h : memRead m (pteAddr a (vpn va l)) 8 = none) :
    walkLevels c m va (l :: rest) a = { reads := [pteAddr a (vpn va l)], ending := .fault .memReadFail } := by
  simp [walkLevels, readPte, h]

/-- A walk that meets a bad entry ends there. -/
theorem walkLevels_bad (c : Config) (m : Memory) (va pte : DWord) (l : Level) (rest : List Level) (a : PAddr)
    (reason : Reason) (h : pteAt m (pteAddr a (vpn va l)) pte) (hc : checkPte c pte = some reason) :
    walkLevels c m va (l :: rest) a = { reads := [pteAddr a (vpn va l)], ending := .fault reason } := by
  obtain ⟨bytes, hb, rfl⟩ := h
  simp [walkLevels, readPte, hb, hc]

/-- A walk that meets a leaf ends there. -/
theorem walkLevels_leaf (c : Config) (m : Memory) (va pte : DWord) (l : Level) (rest : List Level) (a : PAddr)
    (h : pteAt m (pteAddr a (vpn va l)) pte) (hl : isLeaf c pte) :
    walkLevels c m va (l :: rest) a = { reads := [pteAddr a (vpn va l)], ending := .leaf pte l } := by
  obtain ⟨bytes, hb, rfl⟩ := h
  obtain ⟨hc, hl⟩ := hl
  have hleaf : pteLeaf (le64 bytes) = true := (Bool.or_eq_true _ _).mpr hl
  simp [walkLevels, readPte, hb, (checkPte_eq_none_iff c _).mpr hc, hleaf]

/-- A walk that meets a pointer goes on from the frame it names. -/
theorem walkLevels_pointer (c : Config) (m : Memory) (va pte : DWord) (l : Level) (rest : List Level) (a : PAddr)
    (h : pteAt m (pteAddr a (vpn va l)) pte) (hp : isPointer c pte) :
    walkLevels c m va (l :: rest) a =
      { reads := pteAddr a (vpn va l) :: (walkLevels c m va rest (frameAddr (ptePpn c pte))).reads
        ending := (walkLevels c m va rest (frameAddr (ptePpn c pte))).ending } := by
  obtain ⟨bytes, hb, rfl⟩ := h
  obtain ⟨hc, hr, hx⟩ := hp
  have hleaf : pteLeaf (le64 bytes) = false := by
    have h1 : pteR (le64 bytes) = false := hr
    have h2 : pteX (le64 bytes) = false := hx
    simp [pteLeaf, h1, h2]
  simp [walkLevels, readPte, hb, (checkPte_eq_none_iff c _).mpr hc, hleaf]

/-- Everything a walk of some levels can do: at most one read a level, the first of them at the table it starts from, and
a leaf only from an accepted entry of one of those levels. -/
theorem walkLevels_spec (c : Config) (m : Memory) (va : DWord) : ∀ (levels : List Level) (a : PAddr),
    (walkLevels c m va levels a).reads.length ≤ levels.length ∧
    (∀ x ∈ (walkLevels c m va levels a).reads, ∃ (b : PAddr) (idx : BitVec 9), x = pteAddr b idx ∧
      (b = a ∨ ∃ f, b = frameAddr f)) ∧
    (∀ pte level, (walkLevels c m va levels a).ending = .leaf pte level → level ∈ levels ∧ isLeaf c pte)
  | [], a => by simp [walkLevels]
  | l :: rest, a => by
    have ih := fun pte => walkLevels_spec c m va rest (frameAddr (ptePpn c pte))
    unfold walkLevels
    dsimp only
    cases hread : readPte m a (vpn va l) with
    | none => exact ⟨by simp, fun x hx => ⟨a, _, by simpa using hx, .inl rfl⟩, fun _ _ h => by cases h⟩
    | some pte =>
      dsimp only
      cases hcheck : checkPte c pte with
      | some reason => exact ⟨by simp, fun x hx => ⟨a, _, by simpa using hx, .inl rfl⟩, fun _ _ h => by cases h⟩
      | none =>
        dsimp only
        cases hleaf : pteLeaf pte with
        | true =>
          refine ⟨by simp, fun x hx => ⟨a, _, by simpa using hx, .inl rfl⟩, fun p q h => ?_⟩
          simp only [if_true, WalkEnd.leaf.injEq] at h
          obtain ⟨rfl, rfl⟩ := h
          refine ⟨by simp, (checkPte_eq_none_iff c _).mp hcheck, ?_⟩
          exact (Bool.or_eq_true _ _).mp hleaf
        | false =>
          obtain ⟨h1, h2, h3⟩ := ih pte
          simp only [Bool.false_eq_true, if_false]
          refine ⟨by simpa using h1, fun x hx => ?_, fun p q h => ?_⟩
          · rcases List.mem_cons.mp hx with rfl | hx
            · exact ⟨a, _, rfl, .inl rfl⟩
            · obtain ⟨b, idx, rfl, hb⟩ := h2 x hx
              refine ⟨b, idx, rfl, .inr ?_⟩
              rcases hb with rfl | hb
              · exact ⟨_, rfl⟩
              · exact hb
          · obtain ⟨h4, h5⟩ := h3 p q h
            exact ⟨List.mem_cons_of_mem _ h4, h5⟩

/-! ## Page sizes and entries -/

/-- The number of bytes of a page as a power of two (20_memory.md R72). -/
def pageShift : PageSize → Nat
  | .invalid => 0
  | .kb4 => 12
  | .mb2 => 21
  | .gb1 => 30

/-- The page size of a valid class as a power of two. -/
theorem pageBytes_eq (z : PageSize) (h : z ≠ .invalid) : pageBytes z = BitVec.twoPow 64 (pageShift z) := by
  cases z
  · exact absurd rfl h
  all_goals decide

theorem pageShift_range (z : PageSize) (h : z ≠ .invalid) : 12 ≤ pageShift z ∧ pageShift z ≤ 30 := by
  cases z
  · exact absurd rfl h
  all_goals decide

/-- The bits of the in-page mask. -/
theorem getLsbD_pageMask (z : PageSize) (h : z ≠ .invalid) (i : Nat) (hi : i < 64) :
    (pageBytes z - 1).getLsbD i = decide (i < pageShift z) := by
  cases z
  · exact absurd rfl h
  all_goals (revert i; decide)

/-- Masking off the low bits of a word. -/
theorem toNat_and_not_low {n : Nat} (x m : BitVec n) (k : Nat) (hm : ∀ i, i < n → m.getLsbD i = decide (i < k)) :
    (x &&& ~~~m).toNat = x.toNat - x.toNat % 2 ^ k := by
  have e : x &&& ~~~m = (x >>> k) <<< k := by
    apply BitVec.eq_of_getLsbD_eq
    intro i hi
    simp only [BitVec.getLsbD_and, BitVec.getLsbD_not, hi, decide_true, Bool.true_and, hm i hi,
      BitVec.getLsbD_shiftLeft, BitVec.getLsbD_ushiftRight]
    by_cases hlt : i < k
    · simp [hlt]
    · have : k + (i - k) = i := by omega
      simp [hlt, this]
  rw [e, BitVec.toNat_shiftLeft, BitVec.toNat_ushiftRight, Nat.shiftLeft_eq, Nat.shiftRight_eq_div_pow,
    Nat.mod_eq_of_lt]
  · have := Nat.div_add_mod x.toNat (2 ^ k)
    rw [Nat.mul_comm]
    omega
  · exact lt_of_le_of_lt (Nat.div_mul_le_self _ _) x.isLt

/-- Keeping the low bits of a word. -/
theorem toNat_and_low {n : Nat} (x m : BitVec n) (k : Nat) (hm : ∀ i, i < n → m.getLsbD i = decide (i < k)) :
    (x &&& m).toNat = x.toNat % 2 ^ k := by
  apply Nat.eq_of_testBit_eq
  intro i
  rw [Nat.testBit_mod_two_pow, BitVec.testBit_toNat, BitVec.testBit_toNat, BitVec.getLsbD_and]
  by_cases hi : i < n
  · rw [hm i hi, Bool.and_comm]
  · rw [BitVec.getLsbD_of_ge x i (by omega)]
    simp

/-- The in-page mask in 56 bits. -/
theorem getLsbD_pageMask56 (z : PageSize) (h : z ≠ .invalid) (i : Nat) (hi : i < 56) :
    ((pageBytes z - 1).setWidth 56).getLsbD i = decide (i < pageShift z) := by
  rw [BitVec.getLsbD_setWidth, getLsbD_pageMask z h i (by omega)]
  simp [hi]

/-- The first byte of the page as a number (43_tlb_walker.md R158). -/
theorem pageBase_toNat (z : PageSize) (h : z ≠ .invalid) (va : DWord) :
    (pageBase z va).toNat = va.toNat - va.toNat % 2 ^ pageShift z :=
  toNat_and_not_low va _ _ fun i hi => getLsbD_pageMask z h i hi

/-- The first byte of a page is a multiple of the page size. -/
theorem pageBase_aligned (z : PageSize) (va : DWord) : pageBase z va &&& (pageBytes z - 1) = 0 := by
  apply BitVec.eq_of_getLsbD_eq
  intro i hi
  simp only [pageBase, BitVec.getLsbD_and, BitVec.getLsbD_not, hi, decide_true, Bool.true_and]
  cases (pageBytes z - 1).getLsbD i <;> simp

/-- The first byte of the page of a well-formed address is well formed. -/
theorem canonical_pageBase (z : PageSize) (h : z ≠ .invalid) (va : DWord) (hva : canonical va = true) :
    canonical (pageBase z va) = true := by
  have hk := (pageShift_range z h).2
  have high : ∀ i, 38 ≤ i → i < 64 → (pageBase z va).getLsbD i = va.getLsbD i := by
    intro i h1 h2
    have hn : ¬ i < pageShift z := by omega
    rw [pageBase, BitVec.getLsbD_and, BitVec.getLsbD_not, getLsbD_pageMask z h i h2]
    simp [hn, h2]
  have he : (pageBase z va).extractLsb' 39 25 = va.extractLsb' 39 25 := by
    apply BitVec.eq_of_getLsbD_eq
    intro i hi
    simp only [BitVec.getLsbD_extractLsb', high (39 + i) (by omega) (by omega)]
  rw [canonical, he, high 38 (by omega) (by omega)]
  exact hva

/-- The frame bits of a leaf below its page size (43_tlb_walker.md R158). -/
theorem lowFrame_eq_zero_iff (c : Config) (pte : DWord) (z : PageSize) (hz : z ≠ .invalid)
    (h : c.sv39Ppn2Bits ≤ 26) : lowFrame c pte z = 0 ↔ frameOf c pte % 2 ^ (pageShift z - 12) = 0 := by
  have hm : ∀ i, i < 64 → ((pageBytes z >>> 12) - 1).getLsbD i = decide (i < pageShift z - 12) := by
    cases z
    · exact absurd rfl hz
    all_goals decide
  rw [← BitVec.toNat_inj, lowFrame, toNat_and_low _ _ _ hm, BitVec.toNat_setWidth, ptePpn_toNat c pte h]
  have hlt : frameOf c pte < 2 ^ 64 := by
    rw [← ptePpn_toNat c pte h]
    exact lt_trans (ptePpn c pte).isLt (by decide)
  rw [Nat.mod_eq_of_lt hlt]
  rfl

/-- The size class of a leaf is a valid one. -/
theorem leafSize_ne_invalid (l : Level) : leafSize l ≠ .invalid := by cases l <;> decide

/-- The page address of the entry a leaf makes: its frame number with the bits below the page size cleared. -/
theorem leafEntry_ppa (c : Config) (pte va : DWord) (z : PageSize) (asid : Asid) (hz : z ≠ .invalid)
    (h : c.sv39Ppn2Bits ≤ 26) : (leafEntry c pte z va asid).ppa.toNat =
      (frameOf c pte - frameOf c pte % 2 ^ (pageShift z - 12)) * 4096 := by
  show (frameAddr (ptePpn c pte) &&& ~~~((pageBytes z - 1).setWidth 56)).toNat = _
  rw [toNat_and_not_low _ _ _ fun i hi => getLsbD_pageMask56 z hz i hi, frameAddr_toNat, ptePpn_toNat c pte h]
  have hk := pageShift_range z hz
  have e : 2 ^ pageShift z = 2 ^ (pageShift z - 12) * 4096 := by
    rw [show (4096 : Nat) = 2 ^ 12 from rfl, ← Nat.pow_add]
    congr 1
    omega
  rw [e, Nat.mul_mod_mul_right, Nat.sub_mul]

/-- The entry a leaf makes, in the numbers of `entryFor` (43_tlb_walker.md R158). -/
theorem leafEntry_eq (c : Config) (pte va : DWord) (z : PageSize) (asid : Asid) (hz : z ≠ .invalid)
    (h : c.sv39Ppn2Bits ≤ 26) : leafEntry c pte z va asid =
      entryFor z (2 ^ pageShift z) (frameOf c pte - frameOf c pte % 2 ^ (pageShift z - 12)) pte va asid := by
  have h1 : pageBase z va = BitVec.ofNat 64 (va.toNat - va.toNat % 2 ^ pageShift z) := by
    rw [← pageBase_toNat z hz, BitVec.ofNat_toNat, BitVec.setWidth_eq]
  have h2 : (leafEntry c pte z va asid).ppa =
      BitVec.ofNat 56 ((frameOf c pte - frameOf c pte % 2 ^ (pageShift z - 12)) * 4096) := by
    rw [← leafEntry_ppa c pte va z asid hz h, BitVec.ofNat_toNat, BitVec.setWidth_eq]
  have h3 : leafEntry c pte z va asid = { leafEntry c pte z va asid with
      vpa := pageBase z va, ppa := (leafEntry c pte z va asid).ppa } := rfl
  rw [h3, h1, h2]
  rfl

/-- The in-page offset. -/
theorem offset_toNat (z : PageSize) (hz : z ≠ .invalid) (va : DWord) :
    ((va &&& (pageBytes z - 1)).setWidth 56).toNat = va.toNat % 2 ^ pageShift z := by
  rw [BitVec.toNat_setWidth, toNat_and_low _ _ _ fun i hi => getLsbD_pageMask z hz i hi]
  have hk := (pageShift_range z hz).2
  exact Nat.mod_eq_of_lt (lt_of_lt_of_le (Nat.mod_lt _ (Nat.two_pow_pos _))
    (Nat.pow_le_pow_right (by decide) (by omega)))

/-- The physical address under an entry whose page address is a multiple of its size (20_memory.md R79). -/
theorem physAddr_toNat (e : TlbEntry) (va : DWord) (hz : e.pagesize ≠ .invalid)
    (ha : e.ppa.toNat % 2 ^ pageShift e.pagesize = 0) :
    (physAddr e va).toNat = e.ppa.toNat + va.toNat % 2 ^ pageShift e.pagesize := by
  rw [physAddr, BitVec.toNat_or, offset_toNat _ hz]
  obtain ⟨q, hq⟩ := Nat.dvd_of_mod_eq_zero ha
  rw [hq, Nat.mul_comm, ← Nat.shiftLeft_eq, Nat.shiftLeft_add_eq_or_of_lt (Nat.mod_lt _ (Nat.two_pow_pos _))]

/-- The physical address under the entry a leaf makes. -/
theorem physAddr_leafEntry (c : Config) (pte va : DWord) (z : PageSize) (asid : Asid) (hz : z ≠ .invalid)
    (h : c.sv39Ppn2Bits ≤ 26) : physAddr (leafEntry c pte z va asid) va = BitVec.ofNat 56
      ((frameOf c pte - frameOf c pte % 2 ^ (pageShift z - 12)) * 4096 + va.toNat % 2 ^ pageShift z) := by
  have hp := leafEntry_ppa c pte va z asid hz h
  have ha : (leafEntry c pte z va asid).ppa.toNat % 2 ^ pageShift z = 0 := by
    show (frameAddr (ptePpn c pte) &&& ~~~((pageBytes z - 1).setWidth 56)).toNat % _ = 0
    rw [toNat_and_not_low _ _ _ fun i hi => getLsbD_pageMask56 z hz i hi]
    exact Nat.mod_eq_zero_of_dvd (Nat.dvd_sub_mod _)
  have e : (physAddr (leafEntry c pte z va asid) va).toNat =
      (leafEntry c pte z va asid).ppa.toNat + va.toNat % 2 ^ pageShift z :=
    physAddr_toNat (leafEntry c pte z va asid) va hz ha
  rw [← hp, ← e, BitVec.ofNat_toNat, BitVec.setWidth_eq]

end Sys2Proof.Machine
end

