-- ==== Sys2Proof/Laws/Exec.lean ====
section
/-! SUPPORT. Laws/Exec.lean: what RESOLVE does, case by case, and PRE_INSN in one line. -/

namespace Sys2Proof.Machine

/-- A next state is determined by its outcome. -/
theorem next_inj {t u : State} (h : (Host.Outcome.next t : Host.Outcome State Fault Refusal) = .next u) : t = u := by
  cases h
  rfl

/-! ## RESOLVE -/

/-- RESOLVE of a descriptor of another mode. -/
theorem translate_unsupportedMode (desc va : DWord) (s : State) (h : descMode desc ≠ 8#4) :
    translateVa desc va s = resolveFault .unsupportedMode [] s := by
  simp [translateVa, h]

/-- RESOLVE of an address that is not well formed. -/
theorem translate_nonCanonical (desc va : DWord) (s : State) (h : descMode desc = 8#4) (hc : canonical va = false) :
    translateVa desc va s = resolveFault .nonCanonicalVa [] s := by
  simp [translateVa, h, hc]

/-- RESOLVE that hits. -/
theorem translate_hit (desc va : DWord) (s : State) (e : TlbEntry) (h : descMode desc = 8#4)
    (hc : canonical va = true) (he : lookupEntry s.tlb va (descAsid desc) = some e) :
    translateVa desc va s = resolveOk e va [] s := by
  simp [translateVa, h, hc, he]

/-- RESOLVE that misses. -/
theorem translate_miss (desc va : DWord) (s : State) (h : misses desc va s) :
    translateVa desc va s = resolveMiss (descPpn desc) (descAsid desc) va s := by
  obtain ⟨h1, h2, h3⟩ := h
  have h4 : descMode desc = 8#4 := h1
  have h5 : canonical va = true := (canonical_iff va).mpr h2
  have h6 : lookupEntry s.tlb va (descAsid desc) = none := by
    rw [lookupEntry, List.find?_eq_none]
    intro e he
    rw [show entryMatches e va (descAsid desc) = false from h3 e he]
    decide
  simp [translateVa, h4, h5, h6]

/-- A miss whose walk faults. -/
theorem resolveMiss_fault (root : BitVec 44) (asid : Asid) (va : DWord) (s : State) (reads : List DWord)
    (reason : Reason) (h : walk s.cfg s.mem root va = { reads := reads, ending := .fault reason }) :
    resolveMiss root asid va s = resolveFault reason reads s := by
  simp [resolveMiss, h]

/-- A miss whose walk finds a leaf that makes no entry. -/
theorem resolveMiss_misaligned (root : BitVec 44) (asid : Asid) (va pte : DWord) (s : State) (reads : List DWord)
    (level : Level) (h : walk s.cfg s.mem root va = { reads := reads, ending := .leaf pte level })
    (hm : makeEntry s.cfg pte level va asid = none) :
    resolveMiss root asid va s = resolveFault .misalignedSuperpage reads s := by
  simp [resolveMiss, h, hm]

/-- A miss whose walk finds a leaf that makes an entry. -/
theorem resolveMiss_fill (root : BitVec 44) (asid : Asid) (va pte : DWord) (s : State) (reads : List DWord)
    (level : Level) (e : TlbEntry) (h : walk s.cfg s.mem root va = { reads := reads, ending := .leaf pte level })
    (hm : makeEntry s.cfg pte level va asid = some e) :
    resolveMiss root asid va s = resolveOk e va reads (fillTlb e s) := by
  simp [resolveMiss, h, hm]

/-- A leaf makes no entry exactly when its low frame bits are not 0 and the parameter says to fault. -/
theorem makeEntry_eq_none_iff (c : Config) (pte va : DWord) (level : Level) (asid : Asid) :
    makeEntry c pte level va asid = none ↔
      lowFrame c pte (leafSize level) ≠ 0 ∧ c.sv39SuperpageMisalign = .fault := by
  simp [makeEntry]

/-- The entry a leaf makes, if it makes one. -/
theorem makeEntry_eq_some (c : Config) (pte va : DWord) (level : Level) (asid : Asid) (e : TlbEntry)
    (h : makeEntry c pte level va asid = some e) : e = leafEntry c pte (leafSize level) va asid := by
  unfold makeEntry at h
  split at h
  · cases h
  · exact (Option.some.inj h).symm

/-- Everything RESOLVE can do: a fault; an entry found; an entry filled from a leaf of the walk. -/
theorem translate_cases (desc va : DWord) (s : State) :
    (∃ reason reads, translateVa desc va s = resolveFault reason reads s ∧
      (reads = [] ∨ reads = (walk s.cfg s.mem (descPpn desc) va).reads)) ∨
    (∃ e, lookupEntry s.tlb va (descAsid desc) = some e ∧ canonical va = true ∧
      translateVa desc va s = resolveOk e va [] s) ∨
    (∃ pte level, (walk s.cfg s.mem (descPpn desc) va).ending = .leaf pte level ∧
      lookupEntry s.tlb va (descAsid desc) = none ∧ canonical va = true ∧
      translateVa desc va s =
        resolveOk (leafEntry s.cfg pte (leafSize level) va (descAsid desc)) va
          (walk s.cfg s.mem (descPpn desc) va).reads
          (fillTlb (leafEntry s.cfg pte (leafSize level) va (descAsid desc)) s)) := by
  by_cases h1 : descMode desc = 8#4
  · cases h2 : canonical va with
    | false => exact .inl ⟨_, _, translate_nonCanonical desc va s h1 h2, .inl rfl⟩
    | true =>
      cases h3 : lookupEntry s.tlb va (descAsid desc) with
      | some e => exact .inr (.inl ⟨e, rfl, rfl, translate_hit desc va s e h1 h2 h3⟩)
      | none =>
        have h4 : translateVa desc va s = resolveMiss (descPpn desc) (descAsid desc) va s := by
          simp [translateVa, h1, h2, h3]
        cases h5 : (walk s.cfg s.mem (descPpn desc) va).ending with
        | fault reason => exact .inl ⟨reason, _, by rw [h4]; simp [resolveMiss, h5], .inr rfl⟩
        | leaf pte level =>
          cases h6 : makeEntry s.cfg pte level va (descAsid desc) with
          | none => exact .inl ⟨.misalignedSuperpage, _, by rw [h4]; simp [resolveMiss, h5, h6], .inr rfl⟩
          | some e =>
            have h7 := makeEntry_eq_some _ _ _ _ _ _ h6
            subst h7
            exact .inr (.inr ⟨pte, level, rfl, rfl, rfl, by rw [h4]; simp [resolveMiss, h5, h6]⟩)
  · exact .inl ⟨_, _, translate_unsupportedMode desc va s h1, .inl rfl⟩

/-! ## PRE_INSN -/

/-- PRE_INSN, in one line. -/
theorem exec_preInsn (ext : BitVec 5) (pc : Word) (ds : Bool) (s : State) : exec (.preInsn ext pc ds) s = .next
    (if intDeliverable s.cp0.status (tick s.cfg ext s.cp0).cause then
      takeException excInt 0 pc ds (retire { s with trapPending := false, cp0 := tick s.cfg ext s.cp0 })
    else retire { s with trapPending := false, cp0 := tick s.cfg ext s.cp0 }) := rfl

end Sys2Proof.Machine
end

