-- ==== Sys2Proof/Laws/Memory.lean ====
section
/-! SUPPORT. Laws/Memory.lean: what reading a byte gives after each memory operation, and that every operation keeps the
canonical form of memory. -/

namespace Sys2Proof.Machine

/-- A cell just set answers with its byte. -/
theorem lookup_insertCell_self (k : Nat) (b : Byte) (m : Memory) : (insertCell k b m).lookup k = some b := by
  induction m with
  | nil => simp [insertCell]
  | cons cell m ih =>
    obtain ⟨j, c⟩ := cell
    unfold insertCell
    split
    · simp [List.lookup]
    · split
      · simp [List.lookup]
      · rename_i h
        have : (k == j) = false := by simpa using h
        simp [List.lookup, this, ih]

/-- Every other cell answers as before. -/
theorem lookup_insertCell_of_ne (k j : Nat) (b : Byte) (m : Memory) (h : j ≠ k) :
    (insertCell k b m).lookup j = m.lookup j := by
  have hjk : (j == k) = false := by simpa using h
  induction m with
  | nil => simp [insertCell, List.lookup, hjk]
  | cons cell m ih =>
    obtain ⟨i, c⟩ := cell
    unfold insertCell
    split
    · simp only [List.lookup, hjk]
    · split
      · rename_i h2
        subst h2
        simp only [List.lookup, hjk]
      · simp only [List.lookup, ih]

/-- Reading the byte just stored. -/
theorem readByte_insertCell_self (m : Memory) (a : DWord) (b : Byte) :
    readByte (insertCell a.toNat b m) a = some b := lookup_insertCell_self _ _ _

/-- Reading any other byte. -/
theorem readByte_insertCell_of_ne (m : Memory) (a x : DWord) (b : Byte) (h : x ≠ a) :
    readByte (insertCell a.toNat b m) x = readByte m x :=
  lookup_insertCell_of_ne _ _ _ _ fun hh => h (BitVec.eq_of_toNat_eq hh)

/-- A removed cell no longer answers. -/
theorem lookup_removeCell_self (k : Nat) (m : Memory) : (removeCell k m).lookup k = none := by
  induction m with
  | nil => rfl
  | cons cell m ih =>
    obtain ⟨j, c⟩ := cell
    by_cases h : j = k
    · subst h; simpa [removeCell] using ih
    · have h' : (k == j) = false := by simpa using fun e : k = j => h e.symm
      simpa [removeCell, h, List.lookup, h'] using ih

/-- Every other cell answers as before. -/
theorem lookup_removeCell_of_ne (k j : Nat) (m : Memory) (h : j ≠ k) : (removeCell k m).lookup j = m.lookup j := by
  induction m with
  | nil => rfl
  | cons cell m ih =>
    obtain ⟨i, c⟩ := cell
    by_cases hik : i = k
    · subst hik
      have h' : (j == i) = false := by simpa using h
      simpa [removeCell, List.lookup, h'] using ih
    · simp only [removeCell] at ih
      simp [removeCell, hik, List.lookup, ih]

/-- The canonical form from a lower bound on. -/
theorem risingFrom_mono {lo lo' : Nat} {m : Memory} (h : lo' ≤ lo) (hm : risingFrom lo m = true) :
    risingFrom lo' m = true := by
  cases m with
  | nil => rfl
  | cons cell m =>
    obtain ⟨k, b⟩ := cell
    simp only [risingFrom, Bool.and_eq_true, decide_eq_true_eq] at hm ⊢
    exact ⟨⟨by omega, hm.1.2⟩, hm.2⟩

/-- Setting a cell keeps the canonical form. -/
theorem risingFrom_insertCell (k : Nat) (b : Byte) (hk : k < 2 ^ 64) :
    ∀ (m : Memory) (lo : Nat), lo ≤ k → risingFrom lo m = true → risingFrom lo (insertCell k b m) = true
  | [], lo, h, _ => by
    simp only [insertCell, risingFrom, Bool.and_eq_true, decide_eq_true_eq, and_true]
    exact ⟨h, hk⟩
  | (j, c) :: m, lo, h, hm => by
    simp only [risingFrom, Bool.and_eq_true, decide_eq_true_eq] at hm
    obtain ⟨⟨h1, h2⟩, h3⟩ := hm
    unfold insertCell
    split
    · rename_i hlt
      simp only [risingFrom, Bool.and_eq_true, decide_eq_true_eq]
      exact ⟨⟨h, hk⟩, ⟨by omega, h2⟩, h3⟩
    · split
      · rename_i heq
        subst heq
        simp only [risingFrom, Bool.and_eq_true, decide_eq_true_eq]
        exact ⟨⟨h, hk⟩, h3⟩
      · simp only [risingFrom, Bool.and_eq_true, decide_eq_true_eq]
        exact ⟨⟨h1, h2⟩, risingFrom_insertCell k b hk m (j + 1) (by omega) h3⟩

/-- Removing a cell keeps the canonical form. -/
theorem risingFrom_removeCell (k : Nat) :
    ∀ (m : Memory) (lo : Nat), risingFrom lo m = true → risingFrom lo (removeCell k m) = true
  | [], _, _ => rfl
  | (j, c) :: m, lo, hm => by
    simp only [risingFrom, Bool.and_eq_true, decide_eq_true_eq] at hm
    obtain ⟨⟨h1, h2⟩, h3⟩ := hm
    have ih := risingFrom_removeCell k m (j + 1) h3
    by_cases h : j = k
    · simpa [removeCell, h] using risingFrom_mono (by omega : lo ≤ j + 1) ih
    · simp only [removeCell] at ih
      rw [removeCell, List.filter_cons_of_pos (by simpa using h), risingFrom]
      simp only [Bool.and_eq_true, decide_eq_true_eq]
      exact ⟨⟨h1, h2⟩, ih⟩

/-- A store keeps the canonical form. -/
theorem wf_storeBytes (bs : List Byte) :
    ∀ (m : Memory) (a : DWord), Memory.wf m = true → Memory.wf (storeBytes m a bs) = true := by
  induction bs with
  | nil => intro m a h; exact h
  | cons b bs ih =>
    intro m a h
    exact ih _ _ (risingFrom_insertCell a.toNat b a.isLt m 0 (Nat.zero_le _) h)

/-- Ceasing to answer keeps the canonical form. -/
theorem wf_forgetBytes (n : Nat) :
    ∀ (m : Memory) (a : DWord), Memory.wf m = true → Memory.wf (forgetBytes m a n) = true := by
  induction n with
  | zero => intro m a h; exact h
  | succ n ih => intro m a h; exact ih _ _ (risingFrom_removeCell a.toNat m 0 h)

/-- The memory right after reset is in canonical form. -/
theorem wf_reset : Memory.wf State.reset.mem = true := rfl

/-- A read succeeds exactly with the bytes that answer. -/
theorem memRead_succ (m : Memory) (a : DWord) (n : Nat) : memRead m a (n + 1) =
    match readByte m a, memRead m (a + 1) n with
    | some b, some bs => some (b :: bs)
    | _, _ => none := rfl

/-- What a read that succeeds returns has the length asked for. -/
theorem memRead_length (m : Memory) (n : Nat) :
    ∀ (a : DWord) (bs : List Byte), memRead m a n = some bs → bs.length = n := by
  induction n with
  | zero => intro a bs h; simp only [memRead, Option.some.injEq] at h; subst h; rfl
  | succ n ih =>
    intro a bs h
    rw [memRead_succ] at h
    split at h
    · rename_i b cs hb hcs
      simp only [Option.some.injEq] at h
      subst h
      simp [ih _ _ hcs]
    · cases h

/-- A byte outside the stored range reads as before. -/
theorem readByte_storeBytes_of_ne (bs : List Byte) :
    ∀ (m : Memory) (a x : DWord), (∀ k : Nat, k < bs.length → x ≠ a + BitVec.ofNat 64 k) →
      readByte (storeBytes m a bs) x = readByte m x := by
  induction bs with
  | nil => intro m a x _; rfl
  | cons b bs ih =>
    intro m a x h
    have h0 : x ≠ a := by simpa using h 0 (by simp)
    rw [storeBytes, ih _ _ _ fun k hk => ?_, readByte_insertCell_of_ne _ _ _ _ h0]
    have := h (k + 1) (by simpa using hk)
    rw [BitVec.add_assoc]
    rwa [show (1 : DWord) + BitVec.ofNat 64 k = BitVec.ofNat 64 (k + 1) by
      rw [Nat.add_comm k 1, BitVec.ofNat_add]; rfl]

/-- A read of the range just stored returns the bytes stored. -/
theorem memRead_storeBytes (bs : List Byte) :
    ∀ (m : Memory) (a : DWord), bs.length < 2 ^ 64 → memRead (storeBytes m a bs) a bs.length = some bs := by
  induction bs with
  | nil => intro m a _; rfl
  | cons b bs ih =>
    intro m a h
    have hlen : bs.length + 1 < 2 ^ 64 := by simpa using h
    have hb : readByte (storeBytes (insertCell a.toNat b m) (a + 1) bs) a = some b := by
      rw [readByte_storeBytes_of_ne _ _ _ _ fun k hk => ?_, readByte_insertCell_self]
      intro he
      rw [BitVec.add_assoc] at he
      have h1 : (1 : DWord) + BitVec.ofNat 64 k = 0 := by
        have h2 : a + 0 = a + (1 + BitVec.ofNat 64 k) := by simpa using he
        exact (BitVec.add_right_inj a |>.mp h2).symm
      have h3 := congrArg BitVec.toNat h1
      rw [BitVec.toNat_add, BitVec.toNat_ofNat, Nat.mod_eq_of_lt (by omega : k < 2 ^ 64)] at h3
      have h4 : (1 : DWord).toNat = 1 := rfl
      rw [h4, Nat.mod_eq_of_lt (by omega)] at h3
      simp at h3
    rw [List.length_cons, storeBytes, memRead_succ, hb, ih _ _ (by omega)]

end Sys2Proof.Machine
end

