-- ==== Sys2Proof/Tests/Slice0.lean ====
section
/-! SUPPORT. Tests/Slice0.lean: the decoding of every command from words written out from 30_encoding.md R81 and R87, the
well-formedness smoke tests, single steps taken from spec/95_test_vectors.md, and for every obligation with hypotheses a
state and operands that meet them. -/

namespace Sys2Proof.Machine

/-! ## Decoding (30_encoding.md R81, R82, R86, R87; 95_test_vectors.md 2.1, 2.9) -/

/-- Op code 0001, register number, selector. -/
theorem test_decode_reads :
    decodeTableWord 12 0b0001_00000_000 = some .csrReadIndex ∧
    decodeTableWord 12 0b0001_00001_000 = some .csrReadRandom ∧
    decodeTableWord 12 0b0001_00010_000 = some .csrReadEntryLo0 ∧
    decodeTableWord 12 0b0001_00011_000 = some .csrReadEntryLo1 ∧
    decodeTableWord 12 0b0001_00100_000 = some .csrReadContext ∧
    decodeTableWord 12 0b0001_00101_000 = some .csrReadPageMask ∧
    decodeTableWord 12 0b0001_00110_000 = some .csrReadWired ∧
    decodeTableWord 12 0b0001_01000_000 = some .csrReadBadVAddr ∧
    decodeTableWord 12 0b0001_01001_000 = some .csrReadCount ∧
    decodeTableWord 12 0b0001_01010_000 = some .csrReadEntryHi ∧
    decodeTableWord 12 0b0001_01011_000 = some .csrReadCompare ∧
    decodeTableWord 12 0b0001_01100_000 = some .csrReadStatus ∧
    decodeTableWord 12 0b0001_01101_000 = some .csrReadCause ∧
    decodeTableWord 12 0b0001_01110_000 = some .csrReadEpc ∧
    decodeTableWord 12 0b0001_01111_000 = some .csrReadPrid ∧
    decodeTableWord 12 0b0001_01111_001 = some .csrReadEbase ∧
    decodeTableWord 12 0b0001_10000_000 = some .csrReadConfig0 ∧
    decodeTableWord 12 0b0001_10000_001 = some .csrReadConfig1 ∧
    decodeTableWord 12 0b0001_11100_000 = some .csrReadTagLo ∧
    decodeTableWord 12 0b0001_11101_000 = some .csrReadTagHi ∧
    decodeTableWord 12 0b0001_11110_000 = some .csrReadErrorEpc := by decide

/-- Op code 0010, register number, selector. -/
theorem test_decode_writes :
    decodeTableWord 12 0b0010_00000_000 = some (.csrWriteIndex 0) ∧
    decodeTableWord 12 0b0010_00001_000 = some (.csrWriteRandom 0) ∧
    decodeTableWord 12 0b0010_00010_000 = some (.csrWriteEntryLo0 0) ∧
    decodeTableWord 12 0b0010_00011_000 = some (.csrWriteEntryLo1 0) ∧
    decodeTableWord 12 0b0010_00100_000 = some (.csrWriteContext 0) ∧
    decodeTableWord 12 0b0010_00101_000 = some (.csrWritePageMask 0) ∧
    decodeTableWord 12 0b0010_00110_000 = some (.csrWriteWired 0) ∧
    decodeTableWord 12 0b0010_01000_000 = some (.csrWriteBadVAddr 0) ∧
    decodeTableWord 12 0b0010_01001_000 = some (.csrWriteCount 0) ∧
    decodeTableWord 12 0b0010_01010_000 = some (.csrWriteEntryHi 0) ∧
    decodeTableWord 12 0b0010_01011_000 = some (.csrWriteCompare 0) ∧
    decodeTableWord 12 0b0010_01100_000 = some (.csrWriteStatus 0) ∧
    decodeTableWord 12 0b0010_01101_000 = some (.csrWriteCause 0) ∧
    decodeTableWord 12 0b0010_01110_000 = some (.csrWriteEpc 0) ∧
    decodeTableWord 12 0b0010_01111_000 = some (.csrWritePrid 0) ∧
    decodeTableWord 12 0b0010_01111_001 = some (.csrWriteEbase 0) ∧
    decodeTableWord 12 0b0010_10000_000 = some (.csrWriteConfig0 0) ∧
    decodeTableWord 12 0b0010_10000_001 = some (.csrWriteConfig1 0) ∧
    decodeTableWord 12 0b0010_11100_000 = some (.csrWriteTagLo 0) ∧
    decodeTableWord 12 0b0010_11101_000 = some (.csrWriteTagHi 0) ∧
    decodeTableWord 12 0b0010_11110_000 = some (.csrWriteErrorEpc 0) := by decide

/-- Op codes 0011 to 1001; header bits 7:0 are ignored. -/
theorem test_decode_operations :
    decodeTableWord 12 0b0011_00000000 = some (.preInsn 0 0 false) ∧
    decodeTableWord 12 0b0100_10101011 = some (.raise 0 0 0 false) ∧
    decodeTableWord 12 0b0101_11111111 = some .eret ∧
    decodeTableWord 12 0b0110_00000001 = some .priv ∧
    decodeTableWord 12 0b0111_00000000 = some .trapQuery ∧
    decodeTableWord 12 0b1000_11110000 = some (.invalidate 0 0) ∧
    decodeTableWord 12 0b1001_10100101 = some (.resolve 0 0) := by decide

/-- Each operand comes from its own bus (30_encoding.md R82). -/
theorem test_decode_operands :
    decode { Command.ofHeader 0x260#12 with opValue := 0x8001#32, opPc := 1 } = .ok (.csrWriteStatus 0x8001#32) ∧
    decode { Command.ofHeader 0x300#12 with opExt := 2#5, opPc := 0x1000#32, opDs := true, opExc := 9#5 } =
      .ok (.preInsn 2#5 0x1000#32 true) ∧
    decode { Command.ofHeader 0x400#12 with opExc := 2#5, opBadva := 7#32, opPc := 4#32, opDs := true, opExt := 9#5 } =
      .ok (.raise 2#5 7#32 4#32 true) ∧
    decode { Command.ofHeader 0x800#12 with opVa := 0x1000#64, opAsid := 3#16, opDesc := 5 } =
      .ok (.invalidate 0x1000#64 3#16) ∧
    decode { Command.ofHeader 0x900#12 with opDesc := 8#64, opVa := 0x2000#64, opAsid := 3 } =
      .ok (.resolve 8#64 0x2000#64) := ⟨rfl, rfl, rfl, rfl, rfl⟩

/-- The table's fatal headers (95_test_vectors.md 2.9). -/
theorem test_decode_rejects :
    decode (.ofHeader 0x17A#12) = .error (.unimplementedRegister 15#5 2#3) ∧
    decode (.ofHeader 0x138#12) = .error (.unimplementedRegister 7#5 0#3) ∧
    decode (.ofHeader 0x201#12) = .error (.unimplementedRegister 0#5 1#3) ∧
    decode (.ofHeader 0x2F8#12) = .error (.unimplementedRegister 31#5 0#3) ∧
    decode (.ofHeader 0x0FF#12) = .error (.undefinedOperation 0#4) ∧
    decode (.ofHeader 0xA00#12) = .error (.undefinedOperation 10#4) ∧
    decode (.ofHeader 0xFFF#12) = .error (.undefinedOperation 15#4) := ⟨rfl, rfl, rfl, rfl, rfl, rfl, rfl⟩

/-! ## Well-formedness: one ill-formed term for each check -/

/-- The reference configuration is accepted, and one that breaks each constraint of 00_scope.md R4 is not. -/
theorem test_config_wellFormed :
    Config.reference.wellFormed = true ∧
    { Config.reference with mipsTlbEntries := 3 }.mipsTlbEntriesOk = false ∧
    { Config.reference with mipsTlbEntries := 128 }.wellFormed = false ∧
    { Config.reference with config0Reset := 0x00000083#32 }.config0ResetOk = false ∧
    { Config.reference with config0Reset := 0x80000483#32 }.wellFormed = false ∧
    { Config.reference with config1Reset := 0x3E000000#32 }.config1ResetOk = false ∧
    { Config.reference with config1Reset := 0x1E000001#32 }.wellFormed = false ∧
    { Config.reference with sv39TlbEntries := 0 }.sv39TlbEntriesOk = false ∧
    { Config.reference with sv39TlbEntries := 0 }.wellFormed = false ∧
    { Config.reference with sv39Ppn2Bits := 8 }.sv39Ppn2BitsOk = false ∧
    { Config.reference with sv39Ppn2Bits := 27 }.wellFormed = false := by decide

/-- Headers of the table are accepted, others not. -/
theorem test_command_wellFormed :
    (Command.ofHeader 0x179#12).wellFormed = true ∧ (Command.ofHeader 0x9FF#12).wellFormed = true ∧
    (Command.ofHeader 0x17A#12).wellFormed = false ∧ (Command.ofHeader 0x000#12).wellFormed = false ∧
    (Command.ofHeader 0xA00#12).wellFormed = false := by decide

/-! ## Helpers -/

/-- The state a command leads to. -/
def go (i : Instr) (s : State) : State :=
  match exec i s with
  | .next t => t
  | _ => s

/-- What a read drives after a write, from reset. -/
def readBack (r w : Instr) : Word := (go r (go w State.reset)).out.resValue

/-- The reset state with `Status`, `Cause` and `EBase` set. -/
def withBank (status cause ebase : Word) : State :=
  { State.reset with cp0 := { State.reset.cp0 with status := status, cause := cause, ebase := ebase } }

/-- The eight bytes of an entry, lowest first. -/
def entryBytes (v : DWord) : List Byte :=
  [v.extractLsb' 0 8, v.extractLsb' 8 8, v.extractLsb' 16 8, v.extractLsb' 24 8,
   v.extractLsb' 32 8, v.extractLsb' 40 8, v.extractLsb' 48 8, v.extractLsb' 56 8]

/-- A memory that holds the given entries and answers nowhere else. -/
def tables (entries : List (DWord × DWord)) : Memory :=
  entries.foldl (fun m e => storeBytes m e.1 (entryBytes e.2)) []

/-- The reset state with the given entries in memory. -/
def withTables (entries : List (DWord × DWord)) : State := { State.reset with mem := tables entries }

/-- `DESC1` of 95_test_vectors.md 2.7. -/
def desc1 : DWord := 0x8000100000080000#64

/-- Table set M1 of 95_test_vectors.md 2.7. -/
def tablesM1 : List (DWord × DWord) :=
  [(0x80000008#64, 0x20000401#64), (0x80001008#64, 0x20000801#64), (0x80002008#64, 0x048D14D7#64)]

/-- The state V1 starts from. -/
def stateM1 : State := withTables tablesM1

/-- A legal 4 KB entry of id 1 for page 0x1000. -/
def entry4k : TlbEntry :=
  { pagesize := .kb4, vpa := 0x1000#64, ppa := 0x101000#56, asid := 1#16, r := true, w := true, x := false,
    u := false, g := false, a := true, d := true }

/-- A global 2 MB entry of id 2 for page 0x200000. -/
def entry2m : TlbEntry :=
  { entry4k with pagesize := .mb2, vpa := 0x200000#64, ppa := 0x20200000#56, asid := 2#16, g := true }

/-- The reset state with two valid entries, a store and a RESOLVE to come. -/
def legalState : State :=
  { State.reset with
    cp0 := { State.reset.cp0 with wired := 5, context := 0x00002010#32, cause := 0x80808F7C#32, status := 0x0040FF1F#32 }
    tlb := [entry4k, entry2m, TlbEntry.reset, TlbEntry.reset]
    rr := 2
    mem := tables tablesM1
    inputs := [presentCommand { Command.ofHeader 0x900#12 with opDesc := desc1, opVa := 0x40201ABC#64 }] }

/-! ## CSR_READ and CSR_WRITE (95_test_vectors.md 2.1) -/

/-- Column A: read after writing all ones. -/
theorem test_csr_ones :
    readBack .csrReadIndex (.csrWriteIndex 0xFFFFFFFF#32) = 0x0000000F#32 ∧
    readBack .csrReadRandom (.csrWriteRandom 0xFFFFFFFF#32) = 0x0000000F#32 ∧
    readBack .csrReadEntryLo0 (.csrWriteEntryLo0 0xFFFFFFFF#32) = 0x03FFFFFF#32 ∧
    readBack .csrReadEntryLo1 (.csrWriteEntryLo1 0xFFFFFFFF#32) = 0x03FFFFFF#32 ∧
    readBack .csrReadContext (.csrWriteContext 0xFFFFFFFF#32) = 0xFF800000#32 ∧
    readBack .csrReadPageMask (.csrWritePageMask 0xFFFFFFFF#32) = 0x1FFFE000#32 ∧
    readBack .csrReadWired (.csrWriteWired 0xFFFFFFFF#32) = 0x0000000F#32 ∧
    readBack .csrReadBadVAddr (.csrWriteBadVAddr 0xFFFFFFFF#32) = 0x00000000#32 ∧
    readBack .csrReadCount (.csrWriteCount 0xFFFFFFFF#32) = 0xFFFFFFFF#32 ∧
    readBack .csrReadEntryHi (.csrWriteEntryHi 0xFFFFFFFF#32) = 0xFFFFE0FF#32 ∧
    readBack .csrReadCompare (.csrWriteCompare 0xFFFFFFFF#32) = 0xFFFFFFFF#32 ∧
    readBack .csrReadStatus (.csrWriteStatus 0xFFFFFFFF#32) = 0x0040FF1F#32 ∧
    readBack .csrReadCause (.csrWriteCause 0xFFFFFFFF#32) = 0x00800300#32 ∧
    readBack .csrReadEpc (.csrWriteEpc 0xFFFFFFFF#32) = 0xFFFFFFFF#32 ∧
    readBack .csrReadPrid (.csrWritePrid 0xFFFFFFFF#32) = 0x00000000#32 ∧
    readBack .csrReadEbase (.csrWriteEbase 0xFFFFFFFF#32) = 0xBFFFF000#32 ∧
    readBack .csrReadConfig0 (.csrWriteConfig0 0xFFFFFFFF#32) = 0x80000087#32 ∧
    readBack .csrReadConfig1 (.csrWriteConfig1 0xFFFFFFFF#32) = 0x1E000000#32 ∧
    readBack .csrReadTagLo (.csrWriteTagLo 0xFFFFFFFF#32) = 0xFFFFFFFF#32 ∧
    readBack .csrReadTagHi (.csrWriteTagHi 0xFFFFFFFF#32) = 0xFFFFFFFF#32 ∧
    readBack .csrReadErrorEpc (.csrWriteErrorEpc 0xFFFFFFFF#32) = 0xFFFFFFFF#32 := by decide

/-- Column B: read after writing zero. -/
theorem test_csr_zero :
    readBack .csrReadIndex (.csrWriteIndex 0) = 0x00000000#32 ∧
    readBack .csrReadRandom (.csrWriteRandom 0) = 0x0000000F#32 ∧
    readBack .csrReadEntryLo0 (.csrWriteEntryLo0 0) = 0x00000000#32 ∧
    readBack .csrReadEntryLo1 (.csrWriteEntryLo1 0) = 0x00000000#32 ∧
    readBack .csrReadContext (.csrWriteContext 0) = 0x00000000#32 ∧
    readBack .csrReadPageMask (.csrWritePageMask 0) = 0x00000000#32 ∧
    readBack .csrReadWired (.csrWriteWired 0) = 0x00000000#32 ∧
    readBack .csrReadBadVAddr (.csrWriteBadVAddr 0) = 0x00000000#32 ∧
    readBack .csrReadCount (.csrWriteCount 0) = 0x00000000#32 ∧
    readBack .csrReadEntryHi (.csrWriteEntryHi 0) = 0x00000000#32 ∧
    readBack .csrReadCompare (.csrWriteCompare 0) = 0x00000000#32 ∧
    readBack .csrReadStatus (.csrWriteStatus 0) = 0x00000000#32 ∧
    readBack .csrReadCause (.csrWriteCause 0) = 0x00000000#32 ∧
    readBack .csrReadEpc (.csrWriteEpc 0) = 0x00000000#32 ∧
    readBack .csrReadPrid (.csrWritePrid 0) = 0x00000000#32 ∧
    readBack .csrReadEbase (.csrWriteEbase 0) = 0x80000000#32 ∧
    readBack .csrReadConfig0 (.csrWriteConfig0 0) = 0x80000080#32 ∧
    readBack .csrReadConfig1 (.csrWriteConfig1 0) = 0x1E000000#32 ∧
    readBack .csrReadTagLo (.csrWriteTagLo 0) = 0x00000000#32 ∧
    readBack .csrReadTagHi (.csrWriteTagHi 0) = 0x00000000#32 ∧
    readBack .csrReadErrorEpc (.csrWriteErrorEpc 0) = 0x00000000#32 := by decide

/-- `Wired` sends `Random` to the top (95_test_vectors.md 2.2, step 4). -/
theorem test_wired_random :
    (go (.csrWriteWired 5) (go (.preInsn 0 0 false) State.reset)).cp0.random = 0xF#32 ∧
    (go (.preInsn 0 0 false) State.reset).cp0.random = 0xE#32 := by decide

/-- `Compare` clears the timer bit only (41_csr_access.md R112). -/
theorem test_compare_clears_timer :
    (go (.csrWriteCompare 100) (withBank 0 0x00008400#32 0x80000000#32)).cp0.cause = 0x00000400#32 := by decide

/-- `diag_bev_changed` (95_test_vectors.md 2.1). -/
theorem test_status_bev :
    (go (.csrWriteStatus 0xFFBF00E0#32) State.reset).out.diagBevChanged = true ∧
    (go (.csrWriteStatus 0xFFFFFFFF#32) State.reset).out.diagBevChanged = false := by decide

/-- `Cause` keeps what software may not clear (95_test_vectors.md 2.1, last row). -/
theorem test_cause_write :
    (go (.csrWriteCause 0) (withBank 0 0x80808F7C#32 0x80000000#32)).cp0.cause = 0x80008C7C#32 := by decide

/-! ## PRE_INSN, RAISE, ERET, PRIV, TRAP_QUERY -/

/-- The last two delivered rows of the masking table (95_test_vectors.md 2.3). -/
theorem test_preInsn_delivers :
    let s := go (.preInsn 0#5 0x1000#32 true) (withBank 0x00000101#32 0x00800100#32 0x80000000#32)
    let t := go (.preInsn 1#5 0x1000#32 false) (withBank 0x00400401#32 0x00800000#32 0x80000000#32)
    s.cp0.cause = 0x80800100#32 ∧ s.cp0.status = 0x00000103#32 ∧ s.cp0.epc = 0x00000FFC#32 ∧
      s.trapPending = true ∧ s.trapTarget = 0x80000200#32 ∧
      t.cp0.cause = 0x00800400#32 ∧ t.cp0.status = 0x00400403#32 ∧ t.trapTarget = 0xBFC00380#32 := by decide

/-- Masked rows, and the timer match (95_test_vectors.md 2.2, 2.3). -/
theorem test_preInsn_masked :
    let s := go (.preInsn 2#5 0 false) { withBank 0x00000401#32 0 0x80000000#32 with trapPending := true }
    let t := go (.preInsn 0 0 false) (go (.csrWriteCount 0xFFFFFFFF#32) State.reset)
    s.cp0.cause = 0x00000800#32 ∧ s.trapPending = false ∧ s.cp0.epc = 0 ∧
      t.cp0.count = 0 ∧ t.cp0.cause = 0x00008000#32 := by decide

/-- Rows 8 and 5 of the vector table (95_test_vectors.md 2.4). -/
theorem test_raise_normal :
    let s := go (.raise 1#5 0x00403004#32 0x80001000#32 true) (withBank 0 0 0x80010000#32)
    let t := go (.raise 2#5 0xC0002000#32 0x80001000#32 false) (withBank 0 0 0x80010000#32)
    s.cp0.epc = 0x80000FFC#32 ∧ s.cp0.cause = 0x80000004#32 ∧ s.cp0.status = 0x00000002#32 ∧
      s.cp0.badVAddr = 0x00403004#32 ∧ s.cp0.context = 0x00002010#32 ∧ s.trapTarget = 0x80010180#32 ∧
      t.cp0.context = 0x00600010#32 ∧ t.trapTarget = 0x80010000#32 := by decide

/-- Program P2, step 3 (95_test_vectors.md 3): a second trap from exception level. -/
theorem test_raise_nested :
    let s := go (.raise 2#5 0x00402000#32 0x00400100#32 false) (withBank 0 0 0x80000000#32)
    let t := go (.raise 4#5 0x80000003#32 0x80000008#32 true) s
    t.cp0.epc = 0x00400100#32 ∧ t.cp0.cause = 0x00000010#32 ∧ t.cp0.badVAddr = 0x80000003#32 ∧
      t.cp0.context = 0x00400000#32 ∧ t.trapTarget = 0x80000180#32 := by decide

/-- Three rows of the ERET table (95_test_vectors.md 2.5). -/
theorem test_eret :
    let from_ := fun status : Word => go .eret
      { State.reset with
        cp0 := { State.reset.cp0 with epc := 0x1111#32, errorEpc := 0x2222#32, status := status } }
    (from_ 0x2#32).out.eretTarget = 0x1111#32 ∧ (from_ 0x2#32).cp0.status = 0 ∧
      (from_ 0x6#32).out.eretTarget = 0x2222#32 ∧ (from_ 0x6#32).cp0.status = 0x2#32 ∧
      (from_ 0x0040FF1F#32).cp0.status = 0x0040FF1B#32 := by decide

/-- The PRIV table (95_test_vectors.md 2.6). -/
theorem test_priv :
    let p := fun status : Word => privPin (go .priv (withBank status 0 0))
    p 0x00400000#32 = 0 ∧ p 0 = 0 ∧ p 0x8#32 = 1 ∧ p 0x10#32 = 1 ∧ p 0x18#32 = 1 ∧ p 0x12#32 = 0 ∧
      p 0x14#32 = 0 ∧ p 0x1F#32 = 0 ∧ p 0x11#32 = 1 := by decide

/-- TRAP_QUERY after row 1 of the vector table (95_test_vectors.md 2.6). -/
theorem test_trapQuery :
    let s := go .trapQuery (go .trapQuery (go (.raise 2#5 0x1000#32 0x80001000#32 false) State.reset))
    trapPendingPin s = true ∧ trapTargetPin s = 0xBFC00200#32 := by decide

/-! ## RESOLVE and INVALIDATE -/

/-- V1 and V2 (95_test_vectors.md 2.7): a walk of three levels, then a hit. -/
theorem test_resolve_walk_hit :
    let s := go (.resolve desc1 0x40201ABC#64) stateM1
    let t := go (.resolve desc1 0x40201000#64) { s with mem := [] }
    s.out.memReads = [0x80000008#64, 0x80001008#64, 0x80002008#64] ∧ s.out.resPa = 0x12345ABC#56 ∧ s.rr = 1 ∧
      s.tlb.head? = some
        { pagesize := .kb4, vpa := 0x40201000#64, ppa := 0x12345000#56, asid := 1#16, r := true, w := true,
          x := false, u := true, g := false, a := true, d := true } ∧
      t.out.memReads = [] ∧ t.out.resPa = 0x12345000#56 ∧ t.rr = 1 := by decide

/-- V3, V4, F11a and F9b (95_test_vectors.md 2.7): superpages, a misaligned one, a reserved bit. -/
theorem test_resolve_superpages :
    let s := go (.resolve desc1 0x80123456#64) (withTables [(0x80000010#64, 0x100000CF#64)])
    let t := go (.resolve desc1 0x3ABCDE#64)
      (withTables [(0x80000000#64, 0x20000401#64), (0x80001008#64, 0x080800C7#64)])
    let f := go (.resolve desc1 0x1000#64) (withTables [(0x80000000#64, 0x100004CF#64)])
    let g := go (.resolve desc1 0x1000#64) (withTables [(0x80000000#64, 0x0000002020000401#64)])
    s.out.resPa = 0x40123456#56 ∧ s.out.memReads = [0x80000010#64] ∧
      t.out.resPa = 0x203ABCDE#56 ∧ t.out.memReads = [0x80000000#64, 0x80001008#64] ∧
      f.out.resOk = false ∧ f.out.resolveReason = 8#4 ∧ g.out.resolveReason = 6#4 := by decide

/-- Rows of the INVALIDATE table (95_test_vectors.md 2.8): granularity, id, global. -/
theorem test_invalidate :
    let left := fun (va : DWord) (asid : Asid) =>
      (go (.invalidate va asid) legalState).tlb.map fun e => decide (e.pagesize ≠ .invalid)
    left 0 0 = [false, false, false, false] ∧ left 0 1 = [false, false, false, false] ∧
      left 0x1FFF#64 1 = [false, true, false, false] ∧ left 0x1FFF#64 2 = [true, true, false, false] ∧
      left 0x3FFFFF#64 3 = [true, false, false, false] ∧ left 0x400000#64 0 = [true, true, false, false] := by decide

/-! ## Steps -/

/-- A presented word is the next command executed, and its result stands on the output. -/
theorem test_step_runs_word :
    (match step (State.reset.withFetchWord 12 0x179) with
      | .next t => t.out.resValue == 0x80000000#32 && t.inputs.isEmpty
      | _ => false) = true := by decide

/-- A header outside the table stops the machine with `fatal` = 1 (Program P4, step 11). -/
theorem test_step_fatal :
    (match step (State.reset.withFetchWord 12 0x17A) with
      | .fault (.unimplementedRegister reg sel left) => reg == 15#5 && sel == 2#3 && left.fatal
      | _ => false) = true := by decide

/-! ## Witnesses: for every obligation with hypotheses, a state and operands that meet them -/

/-- `legalState` is legal. -/
theorem witness_legalState : legalState.Inv := by
  refine ⟨by decide, ⟨by decide, by decide, by decide, by decide, by decide, by decide, by decide, by decide, by decide,
    by decide, by decide, by decide, by decide, by decide⟩, .inl rfl, ⟨by decide, by decide, fun e he hz => ?_⟩,
    by decide⟩
  have hall : ∀ e ∈ legalState.tlb, e = entry4k ∨ e = entry2m ∨ e = TlbEntry.reset := by decide
  rcases hall e he with rfl | rfl | rfl
  · exact ⟨by decide, by decide, by decide, by decide, by decide⟩
  · exact ⟨by decide, by decide, by decide, by decide, by decide⟩
  · exact absurd rfl hz

theorem witness_DecoderRejectsByName :
    [0x117#12, 0x1FF#12, 0x201#12, 0x2F8#12].all (fun h => decide
      ((h.extractLsb' 8 4 = 1#4 ∨ h.extractLsb' 8 4 = 2#4) ∧ (Command.ofHeader h).wellFormed = false)) = true ∧
    [0x000#12, 0x0FF#12, 0xA00#12, 0xFFF#12].all (fun h => decide
      (h.extractLsb' 8 4 = 0#4 ∨ 10 ≤ (h.extractLsb' 8 4).toNat)) = true := by decide

/-- The sample `legalState` takes next. -/
def legalSample : PortSample :=
  { rst := false, cmdValid := true,
    cmd := { Command.ofHeader 0x900#12 with opDesc := desc1, opVa := 0x40201ABC#64 } }

theorem witness_StepRunsDecodedCommand :
    legalState.cfg.wellFormed = true ∧ legalState.fatal = false ∧ legalState.inputs = [.port legalSample] ∧
    legalSample.rst = false ∧ legalSample.cmdValid = true ∧
    decode legalSample.cmd = .ok (.resolve desc1 0x40201ABC#64) := ⟨by decide, rfl, rfl, rfl, rfl, rfl⟩

theorem witness_StepWithoutCommandIsIdle :
    State.reset.cfg.wellFormed = true ∧ State.reset.inputs = [] ∧
    { State.reset with inputs := [.port { legalSample with cmdValid := false }] }.inputs =
      [.port { legalSample with cmdValid := false }] := ⟨by decide, rfl, rfl⟩

theorem witness_ResetPinSetsEveryState :
    { legalState with fatal := true, inputs := [.port { legalSample with rst := true }] }.cfg.wellFormed = true ∧
    { legalSample with rst := true }.rst = true := by decide

theorem witness_EveryStepKeepsLegality : legalState.Inv ∧ ∃ t : State, step legalState = .next t ∧
    t.tlb[2]?.any (fun e => decide (e.pagesize = .kb4)) = true ∧ t.rr = 3 :=
  ⟨witness_legalState, go (.resolve desc1 0x40201ABC#64) { legalState with inputs := [] }, rfl, by decide, by decide⟩

theorem witness_UndefinedHeaderIsFatal :
    legalState.cfg.wellFormed = true ∧ legalState.fatal = false ∧
    decode (Command.ofHeader 0x1FF#12) = .error (.unimplementedRegister 31#5 7#3) ∧
    decode (Command.ofHeader 0xFFF#12) = .error (.undefinedOperation 15#4) := ⟨by decide, rfl, rfl, rfl⟩

theorem witness_FatalHoldsUntilReset :
    { legalState with fatal := true }.cfg.wellFormed = true ∧ { legalState with fatal := true }.fatal = true ∧
    { legalState with fatal := true }.inputs = [.port legalSample] ∧
    (legalSample.rst = false ∧ legalSample.cmdValid = true) ∧
    { legalSample with cmdValid := false }.cmdValid = false ∧ { legalSample with rst := true }.rst = true :=
  ⟨by decide, rfl, rfl, ⟨rfl, rfl⟩, rfl, rfl⟩

theorem witness_LegalCallerNeverFaults :
    legalState.cfg.wellFormed = true ∧ legalState.fatal = false ∧ wellDriven legalState.inputs := by
  refine ⟨by decide, rfl, fun p hp _ _ => ?_⟩
  have h : p = legalSample := by simpa [legalState, presentCommand, legalSample] using hp
  subst h
  decide

theorem witness_Units : unitB .priv = false ∧ unitB (.invalidate 0 0) = true ∧
    (∃ t : State, exec .priv legalState = .next t) ∧ ∃ t : State, exec (.invalidate 0 0) legalState = .next t :=
  ⟨rfl, rfl, ⟨_, rfl⟩, ⟨_, rfl⟩⟩

/-- For the CSR_WRITE statements about a legal bank, and the one about a legal configuration as well. -/
theorem witness_legalBank : BankInv legalState.cfg legalState.cp0 ∧ legalState.cfg.wellFormed = true :=
  ⟨witness_legalState.bank, by decide⟩

theorem witness_CsrWriteStatusReportsBevChange :
    BankInv legalState.cfg legalState.cp0 ∧ ∀ v, Instr.csrWriteCause 0 ≠ .csrWriteStatus v :=
  ⟨witness_legalState.bank, fun _ h => by cases h⟩

/-- Not deliverable: masked, disabled, at exception level, at error level. -/
theorem witness_PreInsnCountsAndLatches :
    [0x00000401#32, 0x00000800#32, 0x0000FF03#32, 0x0000FF05#32].all (fun status => decide
      (¬(status.getLsbD 0 = true ∧ status.getLsbD 1 = false ∧ status.getLsbD 2 = false ∧
        (0x00000800#32).extractLsb' 8 8 &&& status.extractLsb' 8 8 ≠ 0#8))) = true := by decide

/-- Deliverable: each of the lowest and the highest pending bit, with the timer match and without. -/
theorem witness_PreInsnDeliversInterrupt :
    [(0x00000101#32, 0x00000100#32), (0x00008001#32, 0x00008000#32), (0x0040FF19#32, 0x0000FF00#32)].all
      (fun p => decide (p.1.getLsbD 0 = true ∧ p.1.getLsbD 1 = false ∧ p.1.getLsbD 2 = false ∧
        p.2.extractLsb' 8 8 &&& p.1.extractLsb' 8 8 ≠ 0#8)) = true ∧
    { State.reset.cp0 with count := 2, compare := 3 }.count + 1 = 3#32 := by decide

theorem witness_RandomCountsDownToWiredAndReturns :
    Config.reference.wellFormed = true ∧ (0#32).toNat ≤ Config.reference.mipsTlbEntries - 1 ∧
    (15#32).toNat ≤ Config.reference.mipsTlbEntries - 1 ∧ 15 ≤ Config.reference.mipsTlbEntries - 1 - (0#32).toNat ∧
    0 ≤ Config.reference.mipsTlbEntries - 1 - (15#32).toNat := by decide

theorem witness_RaiseEntersExceptionLevel : State.reset.cp0.status.getLsbD 1 = false := by decide

theorem witness_RaiseInExceptionLevelGoesGeneral : (withBank 0x00400002#32 0 0).cp0.status.getLsbD 1 = true := by
  decide

theorem witness_EretReturnsAndClearsOneLevel :
    (withBank 0x6#32 0 0).cp0.status.getLsbD 2 = true ∧ (withBank 0x2#32 0 0).cp0.status.getLsbD 2 = false := by
  decide

theorem witness_EretAfterRaiseRestores :
    (withBank 0x0040FF19#32 0 0).cp0.status.getLsbD 1 = false ∧
    (withBank 0x0040FF19#32 0 0).cp0.status.getLsbD 2 = false := by decide

theorem witness_UserModeEnteredOnlyByEretOrStatusWrite :
    (∃ t : State, exec .eret (withBank 0x12#32 0 0) = .next t ∧ privPin (withBank 0x12#32 0 0) = 0#1 ∧
      privPin t = 1#1) ∧
    ∃ t : State, exec (.csrWriteStatus 0x10#32) State.reset = .next t ∧ privPin State.reset = 0#1 ∧
      privPin t = 1#1 := ⟨⟨_, rfl, by decide, by decide⟩, ⟨_, rfl, by decide, by decide⟩⟩

theorem witness_ErrorLevelSetOnlyBySoftware :
    (∃ t : State, exec (.csrWriteStatus 4#32) State.reset = .next t ∧ State.reset.cp0.status.getLsbD 2 = false ∧
      t.cp0.status.getLsbD 2 = true) ∧
    ∃ t : State, exec (.csrWriteErrorEpc 1#32) State.reset = .next t ∧
      t.cp0.errorEpc ≠ State.reset.cp0.errorEpc := ⟨⟨_, rfl, by decide, by decide⟩, ⟨_, rfl, by decide⟩⟩

theorem witness_TimerBitHeldUntilCompareWrite :
    (∃ t : State, exec (.csrWriteCause 0) legalState = .next t ∧ legalState.cp0.cause.getLsbD 15 = true ∧
      ∀ v, Instr.csrWriteCause 0 ≠ .csrWriteCompare v) ∧
    ∃ t : State, exec (.preInsn 0 0 false) (go (.csrWriteCompare 1#32) State.reset) = .next t ∧
      (go (.csrWriteCompare 1#32) State.reset).cp0.cause.getLsbD 15 = false ∧ t.cp0.cause.getLsbD 15 = true :=
  ⟨⟨_, rfl, by decide, fun _ h => by cases h⟩, ⟨_, rfl, by decide, by decide⟩⟩

theorem witness_StorageRegistersChangeOnlyByTheirWrite :
    (go (.csrWriteEntryHi 1) State.reset).cp0.entryHi ≠ State.reset.cp0.entryHi ∧
    (go (.csrWriteEntryLo0 1) State.reset).cp0.entryLo0 ≠ State.reset.cp0.entryLo0 ∧
    (go (.csrWriteEntryLo1 1) State.reset).cp0.entryLo1 ≠ State.reset.cp0.entryLo1 ∧
    (go (.csrWritePageMask 0x2000#32) State.reset).cp0.pageMask ≠ State.reset.cp0.pageMask ∧
    (go (.csrWriteIndex 1) State.reset).cp0.index ≠ State.reset.cp0.index ∧
    (go (.csrWriteTagLo 1) State.reset).cp0.tagLo ≠ State.reset.cp0.tagLo ∧
    (go (.csrWriteTagHi 1) State.reset).cp0.tagHi ≠ State.reset.cp0.tagHi := by decide

theorem witness_TrapPairChangesOnlyByControllerTraps :
    (∃ t : State, exec .eret legalState = .next t) ∧ (∀ ext pc ds, Instr.eret ≠ .preInsn ext pc ds) ∧
    ∀ exc badva pc ds, Instr.eret ≠ .raise exc badva pc ds :=
  ⟨⟨_, rfl⟩, fun _ _ _ h => (by cases h), fun _ _ _ _ h => (by cases h)⟩

/-- The first and the last well-formed addresses of both halves; INVALIDATE may name any of them, or the sentinels. -/
theorem witness_InvalidateForcesNextWalk :
    desc1.extractLsb' 60 4 = 8#4 ∧
    [0#64, 0x3FFFFFFFFF#64, 0xFFFFFFC000000000#64, 0xFFFFFFFFFFFFFFFF#64].all
      (fun va => decide (va = (va.extractLsb' 0 39).signExtend 64)) = true := by decide

theorem witness_ResolveTestsModeThenAddress :
    [0x7000100000080000#64, 0x9000100000080000#64].all (fun desc => decide (desc.extractLsb' 60 4 ≠ 8#4)) = true ∧
    desc1.extractLsb' 60 4 = 8#4 ∧
    [0x4000000000#64, 0xFFFFFF8000000000#64, 0x8000000040201ABC#64].all
      (fun va => decide (va ≠ (va.extractLsb' 0 39).signExtend 64)) = true := by decide

theorem witness_ResolveHitAnswersFromTlb :
    legalState.tlb[1]? = some entry2m ∧ 0x3FFFFF#64 = ((0x3FFFFF#64).extractLsb' 0 39).signExtend 64 ∧
    entryMatches entry2m 0x3FFFFF#64 (desc1.extractLsb' 44 16) = true ∧
    ∀ e ∈ legalState.tlb.take 1, entryMatches e 0x3FFFFF#64 (desc1.extractLsb' 44 16) = false := by decide

theorem witness_RepeatedResolveHits : TlbInv legalState.cfg legalState.tlb legalState.rr ∧
    (∃ s1 : State, exec (.resolve desc1 0x40201ABC#64) legalState = .next s1 ∧ s1.out.resOk = true) ∧
    ∃ s1 : State, exec (.resolve desc1 0x200000#64) legalState = .next s1 ∧ s1.out.resOk = true :=
  ⟨witness_legalState.tlb, ⟨_, rfl, by decide⟩, ⟨_, rfl, by decide⟩⟩

/-- The port answers the entry at the address. -/
theorem pteAt_of_map (m : Memory) (a p : DWord) (h : (memRead m a 8).map le64 = some p) : pteAt m a p := by
  obtain ⟨bytes, hb, hp⟩ := Option.map_eq_some_iff.mp h
  exact ⟨bytes, hb, hp⟩

/-- RESOLVE of page 0x1000 under `DESC1` misses in an empty TLB. -/
theorem misses_withTables (entries : List (DWord × DWord)) : misses desc1 0x1000#64 (withTables entries) :=
  ⟨by decide, by decide, fun e he => by
    have h : ∀ e ∈ State.reset.tlb, entryMatches e 0x1000#64 (desc1.extractLsb' 44 16) = false := by decide
    exact h e he⟩

/-- The three addresses a walk of page 0x1000 under `DESC1` reads through the two pointers of table set M3. -/
theorem walk_addresses :
    entryAddr (desc1.extractLsb' 0 44).toNat ((0x1000#64).toNat / 2 ^ 30 % 512) = 0x80000000#64 ∧
    entryAddr (frameOf Config.reference 0x20000401#64) ((0x1000#64).toNat / 2 ^ 21 % 512) = 0x80001000#64 ∧
    entryAddr (frameOf Config.reference 0x20000801#64) ((0x1000#64).toNat / 2 ^ 12 % 512) = 0x80002008#64 := by decide

/-- A reference configuration, a miss, and pointers, leaves and bad entries as the walk statements ask for. -/
theorem witness_ResolveMapsGigabytePage :
    let s := withTables [(0x80000000#64, 0x1FC00000CB#64)]
    s.cfg.wellFormed = true ∧ misses desc1 0x1000#64 s ∧ pteAt s.mem 0x80000000#64 0x1FC00000CB#64 ∧
    isLeaf s.cfg 0x1FC00000CB#64 ∧ frameOf s.cfg 0x1FC00000CB#64 % 2 ^ 18 = 0 :=
  ⟨by decide, misses_withTables _, pteAt_of_map _ _ _ (by decide), ⟨⟨by decide, by decide, by decide⟩, by decide⟩,
    by decide⟩

theorem witness_ResolveMapsTwoMegabytePage :
    let s := withTables [(0x80000000#64, 0x20000401#64), (0x80001000#64, 0x1FFFF800C9#64)]
    s.cfg.wellFormed = true ∧ misses desc1 0x1000#64 s ∧ pteAt s.mem 0x80000000#64 0x20000401#64 ∧
    isPointer s.cfg 0x20000401#64 ∧ pteAt s.mem 0x80001000#64 0x1FFFF800C9#64 ∧ isLeaf s.cfg 0x1FFFF800C9#64 ∧
    frameOf s.cfg 0x1FFFF800C9#64 % 2 ^ 9 = 0 :=
  ⟨by decide, misses_withTables _, pteAt_of_map _ _ _ (by decide), ⟨⟨by decide, by decide, by decide⟩, by decide⟩,
    pteAt_of_map _ _ _ (by decide), ⟨⟨by decide, by decide, by decide⟩, by decide⟩, by decide⟩

theorem witness_ResolveMapsFourKilobytePage :
    let s := withTables [(0x80000000#64, 0x20000401#64), (0x80001000#64, 0x20000801#64), (0x80002008#64, 0x1FFFFFFFFF#64)]
    s.cfg.wellFormed = true ∧ misses desc1 0x1000#64 s ∧ pteAt s.mem 0x80000000#64 0x20000401#64 ∧
    isPointer s.cfg 0x20000401#64 ∧ pteAt s.mem 0x80001000#64 0x20000801#64 ∧ isPointer s.cfg 0x20000801#64 ∧
    pteAt s.mem 0x80002008#64 0x1FFFFFFFFF#64 ∧ isLeaf s.cfg 0x1FFFFFFFFF#64 :=
  ⟨by decide, misses_withTables _, pteAt_of_map _ _ _ (by decide), ⟨⟨by decide, by decide, by decide⟩, by decide⟩,
    pteAt_of_map _ _ _ (by decide), ⟨⟨by decide, by decide, by decide⟩, by decide⟩,
    pteAt_of_map _ _ _ (by decide), ⟨⟨by decide, by decide, by decide⟩, by decide⟩⟩

/-- One bad entry of each kind; the fourth has only the lowest reserved bit set. -/
theorem bad_entries :
    (0x6#64).getLsbD 0 = false ∧
    ((0x5#64).getLsbD 0 = true ∧ (0x5#64).getLsbD 1 = false ∧ (0x5#64).getLsbD 2 = true) ∧
    (0x2000000001#64).getLsbD 0 = true ∧ ((0x2000000001#64).getLsbD 2 = true → (0x2000000001#64).getLsbD 1 = true) ∧
    2 ^ (28 + Config.reference.sv39Ppn2Bits) ≤ (0x2000000001#64).toNat := by decide

/-- Every kind of bad entry at every level, behind pointers. -/
theorem witness_BadTableEntryFaultsAtEveryLevel :
    (∀ p ∈ [0x6#64, 0x5#64, 0x2000000001#64], pteAt (tables [(0x80000000#64, p)]) 0x80000000#64 p) ∧
    (∀ p ∈ [0x6#64, 0x5#64, 0x2000000001#64],
      pteAt (tables [(0x80000000#64, 0x20000401#64), (0x80001000#64, p)]) 0x80001000#64 p) ∧
    (∀ p ∈ [0x6#64, 0x5#64, 0x2000000001#64],
      pteAt (tables [(0x80000000#64, 0x20000401#64), (0x80001000#64, 0x20000801#64), (0x80002008#64, p)])
        0x80002008#64 p) ∧
    memRead (tables []) 0x80000000#64 8 = none ∧
    memRead (tables [(0x80000000#64, 0x20000401#64)]) 0x80001000#64 8 = none ∧
    memRead (tables [(0x80000000#64, 0x20000401#64), (0x80001000#64, 0x20000801#64)]) 0x80002008#64 8 = none := by
  refine ⟨fun p hp => pteAt_of_map _ _ _ ?_, fun p hp => pteAt_of_map _ _ _ ?_, fun p hp => pteAt_of_map _ _ _ ?_,
    by decide, by decide, by decide⟩
  all_goals
    simp only [List.mem_cons, List.not_mem_nil, or_false] at hp
    rcases hp with rfl | rfl | rfl <;> decide

theorem witness_PointerAtLastLevelFaults :
    let s := withTables [(0x80000000#64, 0x20000401#64), (0x80001000#64, 0x20000801#64), (0x80002008#64, 0x20000C01#64)]
    misses desc1 0x1000#64 s ∧ pteAt s.mem 0x80002008#64 0x20000C01#64 ∧ isPointer s.cfg 0x20000C01#64 :=
  ⟨misses_withTables _, pteAt_of_map _ _ _ (by decide), ⟨⟨by decide, by decide, by decide⟩, by decide⟩⟩

/-- A misaligned leaf at both superpage levels, under both values of the parameter. -/
theorem witness_MisalignedSuperpageFaultsOrIsMasked :
    (let s := withTables [(0x80000000#64, 0x100004CF#64)]
     misses desc1 0x1000#64 s ∧ pteAt s.mem 0x80000000#64 0x100004CF#64 ∧ isLeaf s.cfg 0x100004CF#64 ∧
      frameOf s.cfg 0x100004CF#64 % 2 ^ 18 ≠ 0 ∧ s.cfg.sv39SuperpageMisalign = .fault) ∧
    (let s := withTables [(0x80000000#64, 0x20000401#64), (0x80001000#64, 0x1007FCCF#64)]
     misses desc1 0x1000#64 s ∧ isPointer s.cfg 0x20000401#64 ∧ pteAt s.mem 0x80001000#64 0x1007FCCF#64 ∧
      isLeaf s.cfg 0x1007FCCF#64 ∧ frameOf s.cfg 0x1007FCCF#64 % 2 ^ 9 ≠ 0) ∧
    { Config.reference with sv39SuperpageMisalign := .mask }.wellFormed = true :=
  ⟨⟨misses_withTables _, pteAt_of_map _ _ _ (by decide), ⟨⟨by decide, by decide, by decide⟩, by decide⟩, by decide, rfl⟩,
    ⟨misses_withTables _, ⟨⟨by decide, by decide, by decide⟩, by decide⟩, pteAt_of_map _ _ _ (by decide),
      ⟨⟨by decide, by decide, by decide⟩, by decide⟩, by decide⟩, by decide⟩

theorem witness_FaultingResolveChangesNothing :
    (go (.resolve desc1 0x1000#64) State.reset).out.resOk = false ∧
    (go (.resolve desc1 0x40201ABC#64) stateM1).out.resOk = true := by decide

theorem witness_ResolveReadsAtMostThreeAlignedEntries : ∀ desc va, Instr.invalidate 0 0 ≠ .resolve desc va :=
  fun _ _ h => by cases h

theorem witness_OffsetOrAndPlusAgree : EntryInv entry2m ∧ entry2m.pagesize ≠ .invalid :=
  ⟨⟨by decide, by decide, by decide, by decide, by decide⟩, by decide⟩

/-- A store that wraps past the top of the address space, and an address beside it. -/
theorem witness_StoreThenReadLittleEndian :
    let s := { State.reset with inputs := [.memStore 0xFFFFFFFFFFFFFFFC#64 (entryBytes 0x0102030405060708#64)] }
    s.cfg.wellFormed = true ∧ (entryBytes 0x0102030405060708#64).length = 8 ∧
    ∀ k ∈ List.range 8, (4#64 : DWord) ≠ 0xFFFFFFFFFFFFFFFC#64 + BitVec.ofNat 64 k := by decide

end Sys2Proof.Machine
end

/-! PROOFS of the family 00_scope. First the layer the obligations need: what every command does, family by family; what
one unit's command leaves alone; which headers decode; what one step takes. Then the obligations, each a short use of it. -/

/-! ## The commands by family -/

namespace Sys2Proof

/-- Case analysis on a command by the nine operations of 30_encoding.md R81, the register of a CSR access left open. -/
theorem Instr.byFamily {motive : Instr → Prop} (read : ∀ r : Csr, motive r.readInstr)
    (write : ∀ (r : Csr) (v : Word), motive (r.writeInstr v))
    (preInsn : ∀ ext pc ds, motive (.preInsn ext pc ds)) (raise : ∀ exc badva pc ds, motive (.raise exc badva pc ds))
    (eret : motive .eret) (priv : motive .priv) (trapQuery : motive .trapQuery)
    (invalidate : ∀ va asid, motive (.invalidate va asid)) (resolve : ∀ desc va, motive (.resolve desc va))
    (i : Instr) : motive i := by
  cases i
  case preInsn ext pc ds => exact preInsn ext pc ds
  case raise exc badva pc ds => exact raise exc badva pc ds
  case eret => exact eret
  case priv => exact priv
  case trapQuery => exact trapQuery
  case invalidate va asid => exact invalidate va asid
  case resolve desc va => exact resolve desc va
  exacts [read .index, read .random, read .entryLo0, read .entryLo1, read .context, read .pageMask, read .wired,
    read .badVAddr, read .count, read .entryHi, read .compare, read .status, read .cause, read .epc, read .prid,
    read .ebase, read .config0, read .config1, read .tagLo, read .tagHi, read .errorEpc,
    write .index _, write .random _, write .entryLo0 _, write .entryLo1 _, write .context _, write .pageMask _,
    write .wired _, write .badVAddr _, write .count _, write .entryHi _, write .compare _, write .status _,
    write .cause _, write .epc _, write .prid _, write .ebase _, write .config0 _, write .config1 _, write .tagLo _,
    write .tagHi _, write .errorEpc _]

end Sys2Proof

namespace Sys2Proof.Machine

/-- CSR_READ of any register (41_csr_access.md R100). -/
theorem exec_readInstr (r : Csr) (s : State) : exec r.readInstr s = .next (readCsr r s) := by
  cases r <;> rfl

/-- The bank after a CSR_WRITE: the masked write, and the coupled effect of `Wired` (41_csr_access.md R108) or `Compare`
(R112). -/
def writtenBank (c : Config) (b : Cp0) (v : Word) (r : Csr) : Cp0 :=
  let t := setCsr b (maskedWrite (writeMask c r) (getCsr b r) v) r
  match r with
  | .wired => { t with random := c.topEntry }
  | .compare => { t with cause := setCauseTimer t.cause false }
  | _ => t

/-- The outputs of a CSR_WRITE that takes the bank from `b` to `b'`: only a `Status` write drives one
(41_csr_access.md R113). -/
def writtenOutputs (n : Nat) (b b' : Cp0) : Csr → Outputs
  | .status => { undriven n with diagBevChanged := statusBEV b.status != statusBEV b'.status }
  | _ => undriven n

/-- CSR_WRITE of any register, its coupled effect included (41_csr_access.md R101 to R122). -/
theorem exec_writeInstr (r : Csr) (v : Word) (s : State) : exec (r.writeInstr v) s = .next
    (respond (writtenOutputs s.fresh s.cp0 (writtenBank s.cfg s.cp0 v r) r)
      { s with cp0 := writtenBank s.cfg s.cp0 v r }) := by
  cases r <;> rfl

theorem exec_raise (exc : BitVec 5) (badva pc : Word) (ds : Bool) (s : State) :
    exec (.raise exc badva pc ds) s = .next (takeException exc badva pc ds (retire s)) := rfl

theorem exec_eret (s : State) : exec .eret s = .next
    (respond { undriven s.fresh with eretTarget := (returnFromException s.cp0).1 }
      { s with cp0 := (returnFromException s.cp0).2 }) := rfl

theorem exec_priv (s : State) : exec .priv s = .next (retire s) := rfl

theorem exec_trapQuery (s : State) : exec .trapQuery s = .next (retire s) := rfl

theorem exec_invalidate (va : DWord) (asid : Asid) (s : State) : exec (.invalidate va asid) s =
    .next (retire { s with tlb := s.tlb.map (invalidateEntry va asid) }) := rfl

theorem exec_resolve (desc va : DWord) (s : State) : exec (.resolve desc va) s = .next (translateVa desc va s) := rfl

/-! ## The two units (00_scope.md R2)

One lemma a unit says everything the obligations ask: a command of the unit completes, gives new values to that unit's
state and the outputs only, and those values do not depend on the other unit's state. -/

/-- A unit A command completes with the bank, the trap pair and the outputs of a state `t` that does not depend on the
TLB, `rr` or memory, and leaves everything else. -/
theorem exec_unitA (i : Instr) (s : State) (h : unitB i = false) :
    ∃ t : State, ∀ (tlb : List TlbEntry) (rr : Nat) (mem : Memory),
      exec i { s with tlb := tlb, rr := rr, mem := mem } = .next
        { s with cp0 := t.cp0, trapPending := t.trapPending, trapTarget := t.trapTarget, out := t.out, fresh := t.fresh,
                 tlb := tlb, rr := rr, mem := mem } := by
  induction i using Instr.byFamily with
  | read r => exact ⟨readCsr r s, fun _ _ _ => exec_readInstr r _⟩
  | write r v =>
    exact ⟨respond (writtenOutputs s.fresh s.cp0 (writtenBank s.cfg s.cp0 v r) r)
      { s with cp0 := writtenBank s.cfg s.cp0 v r }, fun _ _ _ => exec_writeInstr r v _⟩
  | preInsn ext pc ds =>
    by_cases hd : intDeliverable s.cp0.status (tick s.cfg ext s.cp0).cause = true
    · exact ⟨takeException excInt 0 pc ds (retire { s with trapPending := false, cp0 := tick s.cfg ext s.cp0 }),
        fun _ _ _ => (exec_preInsn ext pc ds _).trans (congrArg _ (if_pos hd))⟩
    · exact ⟨retire { s with trapPending := false, cp0 := tick s.cfg ext s.cp0 },
        fun _ _ _ => (exec_preInsn ext pc ds _).trans (congrArg _ (if_neg hd))⟩
  | raise exc badva pc ds => exact ⟨takeException exc badva pc ds (retire s), fun _ _ _ => exec_raise exc badva pc ds _⟩
  | eret =>
    exact ⟨respond { undriven s.fresh with eretTarget := (returnFromException s.cp0).1 }
      { s with cp0 := (returnFromException s.cp0).2 }, fun _ _ _ => exec_eret _⟩
  | priv => exact ⟨retire s, fun _ _ _ => exec_priv _⟩
  | trapQuery => exact ⟨retire s, fun _ _ _ => exec_trapQuery _⟩
  | invalidate va asid => cases h
  | resolve desc va => cases h

/-- A miss gives the TLB, `rr` and the outputs of a state `t` that does not depend on unit A's state, and leaves
everything else. -/
theorem resolveMiss_unitB (root : BitVec 44) (asid : Asid) (va : DWord) (s : State) :
    ∃ t : State, ∀ (cp0 : Cp0) (pending : Bool) (target : Word),
      resolveMiss root asid va { s with cp0 := cp0, trapPending := pending, trapTarget := target } =
        { s with tlb := t.tlb, rr := t.rr, out := t.out, fresh := t.fresh,
                 cp0 := cp0, trapPending := pending, trapTarget := target } := by
  cases hw : walk s.cfg s.mem root va with | mk reads ending =>
  cases ending with
  | fault reason =>
    exact ⟨resolveFault reason reads s, fun _ _ _ => resolveMiss_fault root asid va _ reads reason hw⟩
  | leaf pte level =>
    cases hm : makeEntry s.cfg pte level va asid with
    | none =>
      exact ⟨resolveFault .misalignedSuperpage reads s,
        fun _ _ _ => resolveMiss_misaligned root asid va pte _ reads level hw hm⟩
    | some e =>
      exact ⟨resolveOk e va reads (fillTlb e s), fun _ _ _ => resolveMiss_fill root asid va pte _ reads level e hw hm⟩

/-- RESOLVE gives the TLB, `rr` and the outputs of a state `t` that does not depend on unit A's state, and leaves
everything else. -/
theorem translateVa_unitB (desc va : DWord) (s : State) :
    ∃ t : State, ∀ (cp0 : Cp0) (pending : Bool) (target : Word),
      translateVa desc va { s with cp0 := cp0, trapPending := pending, trapTarget := target } =
        { s with tlb := t.tlb, rr := t.rr, out := t.out, fresh := t.fresh,
                 cp0 := cp0, trapPending := pending, trapTarget := target } := by
  by_cases hmode : descMode desc = 8#4
  · cases hva : canonical va with
    | false => exact ⟨resolveFault .nonCanonicalVa [] s, fun _ _ _ => translate_nonCanonical desc va _ hmode hva⟩
    | true =>
      cases hhit : lookupEntry s.tlb va (descAsid desc) with
      | some e => exact ⟨resolveOk e va [] s, fun _ _ _ => translate_hit desc va _ e hmode hva hhit⟩
      | none =>
        obtain ⟨t, hmiss⟩ := resolveMiss_unitB (descPpn desc) (descAsid desc) va s
        refine ⟨t, fun cp0 pending target => ?_⟩
        rw [← hmiss]
        simp [translateVa, hmode, hva, hhit]
  · exact ⟨resolveFault .unsupportedMode [] s, fun _ _ _ => translate_unsupportedMode desc va _ hmode⟩

/-- A unit B command completes with the TLB, `rr` and the outputs of a state `t` that does not depend on the register bank
or the trap pair, and leaves everything else. -/
theorem exec_unitB (i : Instr) (s : State) (h : unitB i = true) :
    ∃ t : State, ∀ (cp0 : Cp0) (pending : Bool) (target : Word),
      exec i { s with cp0 := cp0, trapPending := pending, trapTarget := target } = .next
        { s with tlb := t.tlb, rr := t.rr, out := t.out, fresh := t.fresh,
                 cp0 := cp0, trapPending := pending, trapTarget := target } := by
  cases i with
  | invalidate va asid =>
    exact ⟨retire { s with tlb := s.tlb.map (invalidateEntry va asid) }, fun _ _ _ => exec_invalidate va asid _⟩
  | resolve desc va =>
    obtain ⟨t, ht⟩ := translateVa_unitB desc va s
    exact ⟨t, fun cp0 pending target => congrArg _ (ht cp0 pending target)⟩
  | _ => cases h

/-- Every command completes, and leaves the configuration, `fatal`, memory and the inputs to come (00_scope.md R5,
20_memory.md R61). -/
theorem exec_completes (i : Instr) (s : State) : ∃ t : State, exec i s = .next t ∧
    t.cfg = s.cfg ∧ t.fatal = s.fatal ∧ t.mem = s.mem ∧ t.inputs = s.inputs := by
  cases hu : unitB i with
  | false =>
    obtain ⟨u, hexec⟩ := exec_unitA i s hu
    exact ⟨_, hexec s.tlb s.rr s.mem, rfl, rfl, rfl, rfl⟩
  | true =>
    obtain ⟨u, hexec⟩ := exec_unitB i s hu
    exact ⟨_, hexec s.cp0 s.trapPending s.trapTarget, rfl, rfl, rfl, rfl⟩

end Sys2Proof.Machine

/-! ## Headers of the table decode (30_encoding.md R86) -/

namespace Sys2Proof

/-- The op code of a header is in the bits under the mask of the seven operation rows. -/
theorem headerOp_and_mask (h : BitVec 12) : headerOp (h &&& 0xF00#12) = headerOp h := by
  have mask : ∀ i, i < 4 → (0xF00#12).getLsbD (8 + i) = true := by decide
  apply BitVec.eq_of_getLsbD_eq
  intro i hi
  simp [headerOp, mask i hi]

/-- A row of CSR accesses with op code `op` fixes the whole header, to that of one of the 21 registers. -/
def OpcodeRow.isCsrRow (op : BitVec 4) (row : OpcodeRow) : Bool :=
  row.mask == 0xFFF#12 && Csr.all.any fun r => row.pattern == csrHeader op r

theorem header_eq_csrHeader (op : BitVec 4) (row : OpcodeRow) (h : BitVec 12) (hrow : row.isCsrRow op = true)
    (hh : row.matchesHeader h = true) : ∃ r : Csr, h = csrHeader op r := by
  obtain ⟨mnemonic, mask, pattern⟩ := row
  simp only [OpcodeRow.isCsrRow, Bool.and_eq_true, beq_iff_eq, List.any_eq_true] at hrow
  obtain ⟨rfl, r, -, rfl⟩ := hrow
  have hall : h &&& 0xFFF#12 = h := BitVec.and_allOnes
  exact ⟨r, by simpa [OpcodeRow.matchesHeader, hall] using hh⟩

/-- A row of the other operations fixes the op code, to one of 3 to 9. -/
theorem headerOp_of_operationRow (row : OpcodeRow) (h : BitVec 12) (hrow : row ∈ operationRows)
    (hh : row.matchesHeader h = true) : headerOp h ∈ [0x3#4, 0x4#4, 0x5#4, 0x6#4, 0x7#4, 0x8#4, 0x9#4] := by
  have rows : ∀ row ∈ operationRows, row.mask = 0xF00#12 ∧
      headerOp row.pattern ∈ [0x3#4, 0x4#4, 0x5#4, 0x6#4, 0x7#4, 0x8#4, 0x9#4] := by decide
  obtain ⟨hmask, hop⟩ := rows row hrow
  have hpattern : h &&& 0xF00#12 = row.pattern := by simpa [OpcodeRow.matchesHeader, hmask] using hh
  rwa [← hpattern, headerOp_and_mask] at hop

/-- Every op code of 3 to 9 decodes, whatever the rest of the header. -/
theorem decode_of_operation (c : Command)
    (h : headerOp c.header ∈ [0x3#4, 0x4#4, 0x5#4, 0x6#4, 0x7#4, 0x8#4, 0x9#4]) : ∃ i, decode c = .ok i := by
  simp only [List.mem_cons, List.not_mem_nil, or_false] at h
  rcases h with h | h | h | h | h | h | h <;> exact ⟨_, by simp only [decode, h]; rfl⟩

/-- A command whose header belongs to a row of the table decodes to an instruction. -/
theorem decode_of_wellFormed (c : Command) (h : c.wellFormed = true) : ∃ i, decode c = .ok i := by
  have reads : ∀ row ∈ readRows, row.isCsrRow 0x1#4 = true := by decide
  have writes : ∀ row ∈ writeRows, row.isCsrRow 0x2#4 = true := by decide
  obtain ⟨row, hrow, hmatch⟩ := List.any_eq_true.mp h
  simp only [opcodeTable, List.mem_append] at hrow
  rcases hrow with (hrow | hrow) | hrow
  · obtain ⟨r, hr⟩ := header_eq_csrHeader 0x1#4 row c.header (reads row hrow) hmatch
    exact ⟨_, decode_readHeader c r hr⟩
  · obtain ⟨r, hr⟩ := header_eq_csrHeader 0x2#4 row c.header (writes row hrow) hmatch
    exact ⟨_, decode_writeHeader c r hr⟩
  · exact decode_of_operation c (headerOp_of_operationRow row c.header hrow hmatch)

end Sys2Proof

/-! ## One step -/

namespace Sys2Proof.Machine

/-- With no sample left the port is idle. -/
theorem step_nil (s : State) (hc : s.cfg.wellFormed = true) (hi : s.inputs = []) : step s = .next s := by
  simp [step, hc, hi]

/-- A step takes the first input. -/
theorem step_cons (s : State) (input : Input) (rest : List Input) (hc : s.cfg.wellFormed = true)
    (hi : s.inputs = input :: rest) : step s = serveInput input { s with inputs := rest } := by
  simp [step, hc, hi]

theorem serveInput_reset (p : PortSample) (s : State) (h : p.rst = true) :
    serveInput (.port p) s = .next (resetBlock s) := by
  simp [serveInput, h]

theorem serveInput_idle (p : PortSample) (s : State) (hr : p.rst = false) (hv : p.cmdValid = false) :
    serveInput (.port p) s = .next s := by
  simp [serveInput, hr, hv]

theorem serveInput_command (p : PortSample) (s : State) (hr : p.rst = false) (hv : p.cmdValid = true) :
    serveInput (.port p) s = serveCommand p.cmd s := by
  simp [serveInput, hr, hv]

theorem serveCommand_afterFatal (c : Command) (s : State) (hf : s.fatal = true) :
    serveCommand c s = .fault (.commandAfterFatal s) := by
  simp [serveCommand, hf]

theorem serveCommand_ok (c : Command) (s : State) (i : Instr) (hf : s.fatal = false) (hd : decode c = .ok i) :
    serveCommand c s = exec i s := by
  simp [serveCommand, hf, hd]

theorem serveCommand_error (c : Command) (s : State) (e : DecodeError) (hf : s.fatal = false)
    (hd : decode c = .error e) : serveCommand c s = .fault (violation e s) := by
  simp [serveCommand, hf, hd]

/-- A caller that keeps its side in the first input and after it, split. -/
theorem wellDriven_cons (input : Input) (rest : List Input) : wellDriven (input :: rest) ↔
    (∀ p, input = .port p → p.rst = false → p.cmdValid = true → p.cmd.wellFormed = true) ∧ wellDriven rest := by
  constructor
  · intro h
    exact ⟨fun p hp => h p (by simp [hp]), fun p hp => h p (List.mem_cons_of_mem _ hp)⟩
  · rintro ⟨hhead, hrest⟩ p hp
    rcases List.mem_cons.mp hp with hp | hp
    · exact hhead p hp.symm
    · exact hrest p hp

/-- The invariant of a run under a legal caller (00_scope.md R6): a legal configuration, no violation so far, only
commands of the table to come. -/
structure LegallyDriven (s : State) : Prop where
  cfg : s.cfg.wellFormed = true
  fatal : s.fatal = false
  inputs : wellDriven s.inputs

/-- An input of a legal caller is taken with a next state; the configuration and the inputs to come are kept, and `fatal`
stays clear. -/
theorem serveInput_of_wellDriven (input : Input) (s : State) (hf : s.fatal = false)
    (hin : ∀ p, input = .port p → p.rst = false → p.cmdValid = true → p.cmd.wellFormed = true) :
    ∃ t : State, serveInput input s = .next t ∧ t.cfg = s.cfg ∧ t.fatal = false ∧ t.inputs = s.inputs := by
  cases input with
  | port p =>
    cases hr : p.rst with
    | true => exact ⟨_, serveInput_reset p s hr, rfl, rfl, rfl⟩
    | false =>
      cases hv : p.cmdValid with
      | false => exact ⟨s, serveInput_idle p s hr hv, rfl, hf, rfl⟩
      | true =>
        obtain ⟨i, hd⟩ := decode_of_wellFormed p.cmd (hin p rfl hr hv)
        obtain ⟨t, hexec, hcfg, hfatal, -, hinputs⟩ := exec_completes i s
        refine ⟨t, ?_, hcfg, hfatal.trans hf, hinputs⟩
        rw [serveInput_command p s hr hv, serveCommand_ok p.cmd s i hf hd, hexec]
  | memStore addr bytes => exact ⟨platformStore addr bytes s, rfl, rfl, hf, rfl⟩
  | memFail addr n => exact ⟨platformFail addr n s, rfl, rfl, hf, rfl⟩

/-- Under a legal caller a step answers a next state and the invariant goes on. -/
theorem step_keeps_legallyDriven (s : State) (h : LegallyDriven s) : ∃ t, step s = .next t ∧ LegallyDriven t := by
  obtain ⟨hc, hf, hw⟩ := h
  cases hi : s.inputs with
  | nil => exact ⟨s, step_nil s hc hi, hc, hf, hw⟩
  | cons input rest =>
    rw [hi, wellDriven_cons] at hw
    obtain ⟨hhead, hrest⟩ := hw
    obtain ⟨t, hserve, hcfg, hfatal, hinputs⟩ :=
      serveInput_of_wellDriven input { s with inputs := rest } hf hhead
    refine ⟨t, (step_cons s input rest hc hi).trans hserve, ?_, hfatal, ?_⟩
    · rw [hcfg]; exact hc
    · rw [hinputs]; exact hrest

theorem run_succ_of_next (M : Host.Core) (k : Nat) (s u : M.State) (h : M.step s = .next u) :
    M.run (k + 1) s = M.run k u := by
  simp [Host.Core.run, h]

/-- Under a legal caller a run of any length answers a next state, the invariant with it. -/
theorem run_keeps_legallyDriven (k : Nat) :
    ∀ s : State, LegallyDriven s → ∃ t : State, Host.Core.run core k s = .next t ∧ LegallyDriven t := by
  induction k with
  | zero => exact fun s h => ⟨s, rfl, h⟩
  | succ k ih =>
    intro s h
    obtain ⟨u, hstep, hu⟩ := step_keeps_legallyDriven s h
    obtain ⟨t, hrun, ht⟩ := ih u hu
    exact ⟨t, (run_succ_of_next core k s u hstep).trans hrun, ht⟩

/-! ## RESOLVE of a leaf found by the walk -/

/-- Every reason of a fault has a code of 1 to 8 (43_tlb_walker.md R160). -/
theorem reasonCode_range (reason : Reason) : 1 ≤ (reasonCode reason).toNat ∧ (reasonCode reason).toNat ≤ 8 := by
  cases reason <;> decide

theorem ppn2Bits_le_of_wellFormed (c : Config) (h : c.wellFormed = true) : c.sv39Ppn2Bits ≤ 26 := by
  simp only [Config.wellFormed, Config.sv39Ppn2BitsOk, Bool.and_eq_true, decide_eq_true_eq] at h
  obtain ⟨-, -, h26⟩ := h
  exact h26

/-- The walk's address of an entry of level 2, from the root descriptor. -/
theorem pteAddr_root (desc va : DWord) : pteAddr (frameAddr (descPpn desc)) (vpn va .level2) =
    entryAddr (desc.extractLsb' 0 44).toNat (va.toNat / 2 ^ 30 % 512) := by
  obtain ⟨h2, -, -⟩ := vpn_toNat va
  rw [pteAddr_frameAddr, h2]
  rfl

/-- The walk's address of an entry of level 1, from a pointer. -/
theorem pteAddr_level1 (c : Config) (pte va : DWord) (h : c.sv39Ppn2Bits ≤ 26) :
    pteAddr (frameAddr (ptePpn c pte)) (vpn va .level1) = entryAddr (frameOf c pte) (va.toNat / 2 ^ 21 % 512) := by
  obtain ⟨-, h1, -⟩ := vpn_toNat va
  rw [pteAddr_frameAddr, h1, ptePpn_toNat c pte h]

/-- A walk whose root entry is a leaf. -/
theorem walk_rootLeaf (c : Config) (m : Memory) (desc va p2 : DWord)
    (h2 : pteAt m (entryAddr (desc.extractLsb' 0 44).toNat (va.toNat / 2 ^ 30 % 512)) p2) (hl : isLeaf c p2) :
    walk c m (descPpn desc) va =
      { reads := [entryAddr (desc.extractLsb' 0 44).toNat (va.toNat / 2 ^ 30 % 512)], ending := .leaf p2 .level2 } := by
  rw [← pteAddr_root] at h2 ⊢
  exact walkLevels_leaf c m va p2 .level2 _ _ h2 hl

/-- A walk with a pointer at the root and a leaf under it. -/
theorem walk_level1Leaf (c : Config) (m : Memory) (desc va p2 p1 : DWord) (hc : c.sv39Ppn2Bits ≤ 26)
    (h2 : pteAt m (entryAddr (desc.extractLsb' 0 44).toNat (va.toNat / 2 ^ 30 % 512)) p2) (hp : isPointer c p2)
    (h1 : pteAt m (entryAddr (frameOf c p2) (va.toNat / 2 ^ 21 % 512)) p1) (hl : isLeaf c p1) :
    walk c m (descPpn desc) va =
      { reads := [entryAddr (desc.extractLsb' 0 44).toNat (va.toNat / 2 ^ 30 % 512),
          entryAddr (frameOf c p2) (va.toNat / 2 ^ 21 % 512)]
        ending := .leaf p1 .level1 } := by
  rw [← pteAddr_root] at h2 ⊢
  rw [← pteAddr_level1 c p2 va hc] at h1 ⊢
  rw [walk, walkLevels_pointer c m va p2 .level2 _ _ h2 hp, walkLevels_leaf c m va p1 .level1 _ _ h1 hl]

/-- RESOLVE of a misaligned leaf under the parameter `fault`, at whatever level the walk found it. -/
theorem resolve_misaligned_faults (desc va pte : DWord) (s : State) (level : Level) (reads : List DWord)
    (hc : s.cfg.wellFormed = true) (hmiss : misses desc va s)
    (hw : walk s.cfg s.mem (descPpn desc) va = { reads := reads, ending := .leaf pte level })
    (hlow : frameOf s.cfg pte % 2 ^ (pageShift (leafSize level) - 12) ≠ 0)
    (hparam : s.cfg.sv39SuperpageMisalign = .fault) : completes (.resolve desc va) s s (faulted 8#4 reads) := by
  have hz := leafSize_ne_invalid level
  have hnone : makeEntry s.cfg pte level va (descAsid desc) = none :=
    (makeEntry_eq_none_iff ..).mpr
      ⟨fun h => hlow ((lowFrame_eq_zero_iff s.cfg pte _ hz (ppn2Bits_le_of_wellFormed _ hc)).mp h), hparam⟩
  have ht := (translate_miss desc va s hmiss).trans (resolveMiss_misaligned _ _ va pte s reads level hw hnone)
  exact ⟨_, _, congrArg _ ht, rfl, rfl, rfl⟩

/-- RESOLVE of a leaf that makes an entry, at whatever level the walk found it: the frame bits below the page size are
taken as 0. -/
theorem resolve_leaf_fills (desc va pte : DWord) (s : State) (level : Level) (reads : List DWord)
    (hc : s.cfg.wellFormed = true) (hmiss : misses desc va s)
    (hw : walk s.cfg s.mem (descPpn desc) va = { reads := reads, ending := .leaf pte level })
    (hok : frameOf s.cfg pte % 2 ^ (pageShift (leafSize level) - 12) = 0 ∨ s.cfg.sv39SuperpageMisalign = .mask) :
    let shift := pageShift (leafSize level)
    let frame := frameOf s.cfg pte - frameOf s.cfg pte % 2 ^ (shift - 12)
    let e := entryFor (leafSize level) (2 ^ shift) frame pte va (desc.extractLsb' 44 16)
    completes (.resolve desc va) s (filled e s) (succeeded e (frame * 4096 + va.toNat % 2 ^ shift) reads) := by
  have hz := leafSize_ne_invalid level
  have h26 := ppn2Bits_le_of_wellFormed _ hc
  obtain ⟨e, hsome⟩ : ∃ e, makeEntry s.cfg pte level va (descAsid desc) = some e := by
    rw [← Option.ne_none_iff_exists', Ne, makeEntry_eq_none_iff]
    rintro ⟨hlow, hparam⟩
    rcases hok with h | h
    · exact hlow ((lowFrame_eq_zero_iff s.cfg pte _ hz h26).mpr h)
    · rw [hparam] at h; cases h
  have he := makeEntry_eq_some _ _ _ _ _ _ hsome
  have ht := (translate_miss desc va s hmiss).trans (resolveMiss_fill _ _ va pte s reads level e hw hsome)
  have hpa := physAddr_leafEntry s.cfg pte va (leafSize level) (descAsid desc) hz h26
  have hentry := leafEntry_eq s.cfg pte va (leafSize level) (descAsid desc) hz h26
  rw [← he] at hpa hentry
  rw [hentry] at ht hpa
  exact ⟨_, _, congrArg _ ht, rfl, rfl, hpa, rfl, rfl⟩

/-! ## The obligations -/

/-- Settles O13: a legal caller's obligations and a clear `fatal` are an invariant under which every step answers a next
state; induction on the number of steps. -/
theorem legalCallerNeverFaults : Obligations.LegalCallerNeverFaults := by
  intro k s hc hf hw
  obtain ⟨t, hrun, ht⟩ := run_keeps_legallyDriven k s ⟨hc, hf, hw⟩
  exact ⟨t, hrun, ht.fatal⟩

/-- Settles O14. -/
theorem everyCommandCompletesAndLeavesMemory : Obligations.EveryCommandCompletesAndLeavesMemory := by
  intro i s
  obtain ⟨t, hexec, hcfg, hfatal, hmem, hinputs⟩ := exec_completes i s
  exact ⟨t, hexec, fun a => by rw [hmem], hmem, hcfg, hfatal, hinputs⟩

/-- Settles O15, from the laws of the two units. -/
theorem unitsWriteOnlyTheirOwnState : Obligations.UnitsWriteOnlyTheirOwnState := by
  intro i s
  cases hu : unitB i with
  | false =>
    obtain ⟨u, hexec⟩ := exec_unitA i s hu
    exact ⟨_, hexec s.tlb s.rr s.mem, fun _ => ⟨rfl, rfl⟩, nofun⟩
  | true =>
    obtain ⟨u, hexec⟩ := exec_unitB i s hu
    exact ⟨_, hexec s.cp0 s.trapPending s.trapTarget, nofun, fun _ => ⟨rfl, rfl, rfl⟩⟩

/-- Settles O16: the values a unit's law names are the same for every state of the other unit. -/
theorem unitsReadOnlyTheirOwnState : Obligations.UnitsReadOnlyTheirOwnState := by
  intro i s t ht
  constructor
  · intro hu tlb rr mem
    obtain ⟨u, hexec⟩ := exec_unitA i s hu
    have hs := next_inj (ht.symm.trans (hexec s.tlb s.rr s.mem))
    rw [hexec, hs]
  · intro hu cp0 pending target
    obtain ⟨u, hexec⟩ := exec_unitB i s hu
    have hs := next_inj (ht.symm.trans (hexec s.cp0 s.trapPending s.trapTarget))
    rw [hexec, hs]

/-- Settles O56: the leaf at level 2 and the one at level 1, each under both parameter values. -/
theorem misalignedSuperpageFaultsOrIsMasked : Obligations.MisalignedSuperpageFaultsOrIsMasked := by
  intro desc va p2 p1 s a2 a1 f2 f1 e2 e1 hc hmiss h2
  constructor
  · intro hl hlow
    have hw := walk_rootLeaf s.cfg s.mem desc va p2 h2 hl
    exact ⟨resolve_misaligned_faults desc va p2 s .level2 _ hc hmiss hw hlow,
      fun hmask => resolve_leaf_fills desc va p2 s .level2 _ hc hmiss hw (.inr hmask)⟩
  · intro hp h1 hl hlow
    have hw := walk_level1Leaf s.cfg s.mem desc va p2 p1 (ppn2Bits_le_of_wellFormed _ hc) h2 hp h1 hl
    exact ⟨resolve_misaligned_faults desc va p1 s .level1 _ hc hmiss hw hlow,
      fun hmask => resolve_leaf_fills desc va p1 s .level1 _ hc hmiss hw (.inr hmask)⟩

/-- Settles O57, by the three ways RESOLVE can end. -/
theorem faultingResolveChangesNothing : Obligations.FaultingResolveChangesNothing := by
  intro desc va s
  refine ⟨_, exec_resolve desc va s, ?_⟩
  rcases translate_cases desc va s with ⟨reason, reads, ht, -⟩ | ⟨e, -, -, ht⟩ | ⟨pte, level, -, -, -, ht⟩
  · obtain ⟨hlow, hhigh⟩ := reasonCode_range reason
    rw [ht]
    exact ⟨fun _ => ⟨hlow, hhigh, rfl, rfl, rfl, rfl, rfl, rfl, rfl⟩, nofun⟩
  · rw [ht]
    exact ⟨nofun, fun _ => rfl⟩
  · rw [ht]
    exact ⟨nofun, fun _ => rfl⟩

/-- Settles O5. -/
theorem stepRunsDecodedCommand : Obligations.StepRunsDecodedCommand := by
  intro s p rest i hc hf hi hr hv hd
  rw [step_cons s (.port p) rest hc hi, serveInput_command p _ hr hv]
  exact serveCommand_ok p.cmd { s with inputs := rest } i hf hd

/-- Settles O6. -/
theorem stepWithoutCommandIsIdle : Obligations.StepWithoutCommandIsIdle := by
  intro s hc
  refine ⟨step_nil s hc, fun p rest hi hr hv => ?_⟩
  rw [step_cons s (.port p) rest hc hi, serveInput_idle p _ hr hv]

/-- Settles O8, by evaluating the reset state. -/
theorem resetStateHoldsTableValues : Obligations.ResetStateHoldsTableValues := by
  unfold Obligations.ResetStateHoldsTableValues
  decide

/-- Settles O11: the fault of either decode error carries the state with only `fatal` latched. -/
theorem undefinedHeaderIsFatal : Obligations.UndefinedHeaderIsFatal := by
  intro s p rest e hc hf hi hr hv hd
  refine ⟨latchFatal { s with inputs := rest }, ?_, rfl, rfl, rfl, rfl, rfl, rfl, rfl, rfl⟩
  rw [step_cons s (.port p) rest hc hi, serveInput_command p _ hr hv,
    serveCommand_error p.cmd { s with inputs := rest } e hf hd]
  cases e <;> rfl

/-- Settles O12, by what the sample presents. -/
theorem fatalHoldsUntilReset : Obligations.FatalHoldsUntilReset := by
  intro s p rest hc hf hi
  rw [step_cons s (.port p) rest hc hi]
  refine ⟨fun hr hv => ?_, fun hr hv => ?_, fun hr => ?_⟩
  · rw [serveInput_command p _ hr hv]
    exact serveCommand_afterFatal p.cmd { s with inputs := rest } hf
  · exact ⟨_, serveInput_idle p _ hr hv, hf⟩
  · exact ⟨_, serveInput_reset p _ hr, rfl⟩

end Sys2Proof.Machine

/-! PROOFS of the family 10_state. First what keeps the bits a register fixes, then what each command does to the
register bank, the trap pair and the TLB, once each; then the obligations. -/

/-! ## Masks -/

namespace Sys2Proof.Machine

/-- A masked write leaves the bits of every mask disjoint from its own. -/
theorem maskedWrite_and_of_disjoint (mask old v reserved : Word) (h : mask &&& reserved = 0) :
    maskedWrite mask old v &&& reserved = old &&& reserved := by
  apply BitVec.eq_of_getLsbD_eq
  intro i _
  have hbit : (mask.getLsbD i && reserved.getLsbD i) = false := by
    rw [← BitVec.getLsbD_and, h]
    exact BitVec.getLsbD_zero
  rw [BitVec.getLsbD_and, BitVec.getLsbD_and, getLsbD_maskedWrite]
  cases hm : mask.getLsbD i with
  | false => rfl
  | true =>
    have hr : reserved.getLsbD i = false := by simpa [hm] using hbit
    simp [hr]

/-- Writing a field leaves the bits of every mask outside it. -/
theorem insertField_and_of_outside (w : Word) (lo : Nat) {len : Nat} (v : BitVec len) (reserved : Word)
    (hlen : lo + len ≤ 32) (h : ∀ i, i < lo + len → lo ≤ i → reserved.getLsbD i = false) :
    insertField w lo v &&& reserved = w &&& reserved := by
  apply BitVec.eq_of_getLsbD_eq
  intro i _
  rw [BitVec.getLsbD_and, BitVec.getLsbD_and, getLsbD_insertField w lo v i hlen]
  by_cases hi : lo ≤ i ∧ i < lo + len
  · simp [h i hi.2 hi.1]
  · rw [if_neg hi]

/-- Clearing the bits of a mask leaves none of them. -/
theorem and_not_and_self {n : Nat} (x m : BitVec n) : (x &&& ~~~m) &&& m = 0 := by
  rw [BitVec.and_assoc, BitVec.not_and_self]
  exact BitVec.and_zero

/-- The top of the translation-entry range is a block of low ones (00_scope.md R4). -/
theorem topEntry_lowOnes (c : Config) (hc : c.wellFormed = true) :
    ∃ k, ∀ i, i < 32 → c.topEntry.getLsbD i = decide (i < k) := by
  simp only [Config.wellFormed, Config.mipsTlbEntriesOk, Bool.and_eq_true, List.contains_iff_mem, List.mem_cons,
    List.not_mem_nil, or_false] at hc
  obtain ⟨⟨⟨⟨hn, -⟩, -⟩, -⟩, -⟩ := hc
  rw [Config.topEntry]
  rcases hn with hn | hn | hn | hn | hn | hn <;> rw [hn]
  exacts [⟨1, by decide⟩, ⟨2, by decide⟩, ⟨3, by decide⟩, ⟨4, by decide⟩, ⟨5, by decide⟩, ⟨6, by decide⟩]

/-- A value inside the translation-entry range has no bit outside the range's mask. -/
theorem and_not_topEntry_of_le (c : Config) (hc : c.wellFormed = true) (w : Word) (hw : w ≤ c.topEntry) :
    w &&& ~~~c.topEntry = 0 := by
  obtain ⟨k, hk⟩ := topEntry_lowOnes c hc
  have htop : c.topEntry.toNat = c.topEntry.toNat % 2 ^ k := by
    rw [← toNat_and_low c.topEntry c.topEntry k hk, BitVec.and_self]
  have hlt : w.toNat < 2 ^ k :=
    lt_of_le_of_lt (BitVec.le_def.mp hw) (htop ▸ Nat.mod_lt _ (Nat.two_pow_pos k))
  apply BitVec.eq_of_toNat_eq
  rw [toNat_and_not_low w c.topEntry k hk, Nat.mod_eq_of_lt hlt, Nat.sub_self]
  rfl

theorem and_topEntry_le (c : Config) (v : Word) : v &&& c.topEntry ≤ c.topEntry := by
  rw [BitVec.le_def, BitVec.toNat_and]
  exact Nat.and_le_right

theorem sv39TlbEntries_pos_of_wellFormed (c : Config) (hc : c.wellFormed = true) : 0 < c.sv39TlbEntries := by
  simp only [Config.wellFormed, Config.sv39TlbEntriesOk, Bool.and_eq_true, decide_eq_true_eq] at hc
  obtain ⟨⟨-, hn⟩, -⟩ := hc
  exact hn

/-! ## The fixed bits of a register -/

/-- The bits of a register that `BankInv` fixes, reserved (10_state.md R14) or constant (R29 to R32). `Wired` and
`Random` are bounded there instead, and have none here. -/
def fixedMask (c : Config) : Csr → Word
  | .index => ~~~c.topEntry
  | .entryLo0 => 0xFC000000#32
  | .entryLo1 => 0xFC000000#32
  | .context => 0x0000000F#32
  | .pageMask => 0xE0001FFF#32
  | .entryHi => 0x00001F00#32
  | .status => 0xFFBF00E0#32
  | .cause => 0x7F7F0083#32
  | .prid => BitVec.allOnes 32
  | .ebase => 0xC0000FFF#32
  | .config0 => 0xFFFFFFF8#32
  | .config1 => BitVec.allOnes 32
  | _ => 0

/-- Two banks agree in every fixed bit. -/
def SameFixed (c : Config) (b b' : Cp0) : Prop := ∀ r, getCsr b' r &&& fixedMask c r = getCsr b r &&& fixedMask c r

/-- `Wired` ≤ `Random` ≤ N1 - 1 (10_state.md R16). -/
def RandomInRange (c : Config) (b : Cp0) : Prop := b.wired ≤ b.random ∧ b.random ≤ c.topEntry

theorem BankInv.randomInRange {c : Config} {b : Cp0} (h : BankInv c b) : RandomInRange c b :=
  ⟨h.wired_le_random, h.random_le_top⟩

/-- What keeps a bank legal: no fixed bit changed, `Random` in its range. -/
theorem BankInv.of_sameFixed {c : Config} {b b' : Cp0} (hb : BankInv c b) (h : SameFixed c b b')
    (hr : RandomInRange c b') : BankInv c b' where
  index := (h .index).trans hb.index
  wired_le_random := hr.1
  random_le_top := hr.2
  entryLo0 := (h .entryLo0).trans hb.entryLo0
  entryLo1 := (h .entryLo1).trans hb.entryLo1
  context := (h .context).trans hb.context
  pageMask := (h .pageMask).trans hb.pageMask
  entryHi := (h .entryHi).trans hb.entryHi
  status := (h .status).trans hb.status
  cause := (h .cause).trans hb.cause
  prid := by simpa only [getCsr, fixedMask, BitVec.and_allOnes, hb.prid] using h .prid
  ebase := (h .ebase).trans hb.ebase
  config0 := (h .config0).trans hb.config0
  config1 := by simpa only [getCsr, fixedMask, BitVec.and_allOnes, hb.config1] using h .config1

theorem SameFixed.trans {c : Config} {b b' b'' : Cp0} (h : SameFixed c b b') (h' : SameFixed c b' b'') :
    SameFixed c b b'' := fun r => (h' r).trans (h r)

/-- Setting one register to a value that agrees in its fixed bits. -/
theorem SameFixed.set (c : Config) (b : Cp0) (v : Word) (r : Csr)
    (h : v &&& fixedMask c r = getCsr b r &&& fixedMask c r) : SameFixed c b (setCsr b v r) := by
  intro q
  by_cases hq : q = r
  · rw [hq, getCsr_setCsr, h]
  · rw [getCsr_setCsr_of_ne b v r q hq]

/-- No write reaches a fixed bit of its register. -/
theorem writeMask_and_fixedMask (c : Config) (r : Csr) : writeMask c r &&& fixedMask c r = 0 := by
  cases r
  case index => exact BitVec.and_not_self _
  case wired => exact BitVec.and_zero
  all_goals simp [writeMask, fixedMask]

/-! ## What a command does to the register bank -/

theorem setCauseExcCode_fixed (c : Config) (w : Word) (exc : BitVec 5) :
    setCauseExcCode w exc &&& fixedMask c .cause = w &&& fixedMask c .cause :=
  insertField_and_of_outside w 2 exc 0x7F7F0083#32 (by decide) (by decide)

theorem setCauseLines_fixed (c : Config) (w : Word) (ext : BitVec 5) :
    setCauseLines w ext &&& fixedMask c .cause = w &&& fixedMask c .cause :=
  insertField_and_of_outside w 10 ext 0x7F7F0083#32 (by decide) (by decide)

theorem setCauseTimer_fixed (c : Config) (w : Word) (b : Bool) :
    setCauseTimer w b &&& fixedMask c .cause = w &&& fixedMask c .cause :=
  insertField_and_of_outside w 15 (BitVec.ofBool b) 0x7F7F0083#32 (by decide) (by decide)

theorem setCauseBD_fixed (c : Config) (w : Word) (b : Bool) :
    setCauseBD w b &&& fixedMask c .cause = w &&& fixedMask c .cause :=
  insertField_and_of_outside w 31 (BitVec.ofBool b) 0x7F7F0083#32 (by decide) (by decide)

theorem setStatusEXL_fixed (c : Config) (w : Word) (b : Bool) :
    setStatusEXL w b &&& fixedMask c .status = w &&& fixedMask c .status :=
  insertField_and_of_outside w 1 (BitVec.ofBool b) 0xFFBF00E0#32 (by decide) (by decide)

theorem setStatusERL_fixed (c : Config) (w : Word) (b : Bool) :
    setStatusERL w b &&& fixedMask c .status = w &&& fixedMask c .status :=
  insertField_and_of_outside w 2 (BitVec.ofBool b) 0xFFBF00E0#32 (by decide) (by decide)

theorem setContextBadVPN2_fixed (c : Config) (w : Word) (v : BitVec 19) :
    setContextBadVPN2 w v &&& fixedMask c .context = w &&& fixedMask c .context :=
  insertField_and_of_outside w 4 v 0x0000000F#32 (by decide) (by decide)

theorem writtenBank_sameFixed (c : Config) (b : Cp0) (v : Word) (r : Csr) : SameFixed c b (writtenBank c b v r) := by
  have hset : SameFixed c b (setCsr b (maskedWrite (writeMask c r) (getCsr b r) v) r) :=
    .set c b _ r (maskedWrite_and_of_disjoint _ _ _ _ (writeMask_and_fixedMask c r))
  cases r
  case wired => exact hset.trans (.set c _ c.topEntry .random (by simp [fixedMask]))
  case compare => exact hset.trans (.set c _ _ .cause (setCauseTimer_fixed c _ false))
  all_goals exact hset

theorem writtenBank_randomInRange (c : Config) (hc : c.wellFormed = true) (b : Cp0) (v : Word) (r : Csr)
    (h : RandomInRange c b) : RandomInRange c (writtenBank c b v r) := by
  obtain ⟨hwired, hrandom⟩ := h
  cases r
  case random =>
    show b.wired ≤ maskedWrite 0x00000000#32 b.random v ∧ maskedWrite 0x00000000#32 b.random v ≤ c.topEntry
    rw [maskedWrite_zero]
    exact ⟨hwired, hrandom⟩
  case wired =>
    show maskedWrite c.topEntry b.wired v ≤ c.topEntry ∧ c.topEntry ≤ c.topEntry
    rw [maskedWrite_of_reserved _ _ _ (and_not_topEntry_of_le c hc b.wired (BitVec.le_trans hwired hrandom))]
    exact ⟨and_topEntry_le c v, BitVec.le_refl _⟩
  all_goals exact ⟨hwired, hrandom⟩

/-- A register other than the one written is left alone, but for the two coupled effects on `Random` and `Cause`. -/
theorem getCsr_writtenBank_of_ne (c : Config) (b : Cp0) (v : Word) (r q : Csr) (hq : q ≠ r) (hrandom : q ≠ .random)
    (hcause : q ≠ .cause) : getCsr (writtenBank c b v r) q = getCsr b q := by
  have hset := getCsr_setCsr_of_ne b (maskedWrite (writeMask c r) (getCsr b r) v) r q hq
  cases r
  case wired => exact (getCsr_setCsr_of_ne _ c.topEntry .random q hrandom).trans hset
  case compare => exact (getCsr_setCsr_of_ne _ _ .cause q hcause).trans hset
  all_goals exact hset

theorem getCsr_writtenBank_self (c : Config) (b : Cp0) (v : Word) (r : Csr) :
    getCsr (writtenBank c b v r) r = maskedWrite (writeMask c r) (getCsr b r) v := by
  cases r <;> rfl

theorem tick_sameFixed (c : Config) (ext : BitVec 5) (b : Cp0) : SameFixed c b (tick c ext b) := by
  intro r
  cases r
  case count => simp [fixedMask]
  case random => simp [fixedMask]
  case cause =>
    show (tick c ext b).cause &&& _ = b.cause &&& _
    rw [tick_cause]
    split
    · rw [setCauseTimer_fixed, setCauseLines_fixed]
    · rw [setCauseLines_fixed]
  all_goals rfl

/-- Counting down from above `Wired`, or going back to the top, stays in the range (42_exception_ops.md R139). -/
theorem tick_randomInRange (c : Config) (ext : BitVec 5) (b : Cp0) (h : RandomInRange c b) :
    RandomInRange c (tick c ext b) := by
  obtain ⟨hwired, hrandom⟩ := h
  show b.wired ≤ randomNext c b.random b.wired ∧ randomNext c b.random b.wired ≤ c.topEntry
  unfold randomNext
  split
  · exact ⟨BitVec.le_trans hwired hrandom, BitVec.le_refl _⟩
  · constructor <;> bv_omega

theorem takeException_sameFixed (c : Config) (exc : BitVec 5) (badva pc : Word) (ds : Bool) (s : State) :
    SameFixed c s.cp0 (takeException exc badva pc ds s).cp0 := by
  intro r
  cases r
  case epc => simp [fixedMask]
  case badVAddr => simp [fixedMask]
  case context =>
    show (takeException exc badva pc ds s).cp0.context &&& _ = s.cp0.context &&& _
    rw [takeException_context]
    split
    · exact setContextBadVPN2_fixed c _ _
    · rfl
  case status =>
    show (takeException exc badva pc ds s).cp0.status &&& _ = s.cp0.status &&& _
    rw [takeException_status, ← setStatusEXL_true, setStatusEXL_fixed]
  case cause =>
    show (takeException exc badva pc ds s).cp0.cause &&& _ = s.cp0.cause &&& _
    rw [takeException_cause, setCauseExcCode_fixed]
    split
    · rfl
    · exact setCauseBD_fixed c _ ds
  all_goals rw [takeException_frame _ _ _ _ _ _ (by decide)]

theorem takeException_randomInRange (c : Config) (exc : BitVec 5) (badva pc : Word) (ds : Bool) (s : State)
    (h : RandomInRange c s.cp0) : RandomInRange c (takeException exc badva pc ds s).cp0 := by
  have hwired : (takeException exc badva pc ds s).cp0.wired = s.cp0.wired :=
    takeException_frame exc badva pc ds s .wired (by decide)
  have hrandom : (takeException exc badva pc ds s).cp0.random = s.cp0.random :=
    takeException_frame exc badva pc ds s .random (by decide)
  rwa [RandomInRange, hwired, hrandom]

theorem returnFromException_sameFixed (c : Config) (b : Cp0) : SameFixed c b (returnFromException b).2 := by
  unfold returnFromException
  split
  · exact .set c b _ .status (setStatusERL_fixed c b.status false)
  · exact .set c b _ .status (setStatusEXL_fixed c b.status false)

/-- Everything a command can do to the register bank. -/
inductive BankStep (s : State) : Instr → Cp0 → Prop
  | kept (i : Instr) : BankStep s i s.cp0
  | write (r : Csr) (v : Word) : BankStep s (r.writeInstr v) (writtenBank s.cfg s.cp0 v r)
  | tick (ext : BitVec 5) (pc : Word) (ds : Bool) : BankStep s (.preInsn ext pc ds) (tick s.cfg ext s.cp0)
  | interrupt (ext : BitVec 5) (pc : Word) (ds : Bool) : BankStep s (.preInsn ext pc ds)
      (takeException excInt 0 pc ds { s with cp0 := Machine.tick s.cfg ext s.cp0 }).cp0
  | raise (exc : BitVec 5) (badva pc : Word) (ds : Bool) : BankStep s (.raise exc badva pc ds)
      (takeException exc badva pc ds s).cp0
  | eret : BankStep s .eret (returnFromException s.cp0).2

/-- A unit B command leaves unit A's state (00_scope.md R2). -/
theorem exec_unitB_keeps_unitA (i : Instr) (s t : State) (h : exec i s = .next t) (hu : unitB i = true) :
    t.cp0 = s.cp0 ∧ t.trapPending = s.trapPending ∧ t.trapTarget = s.trapTarget := by
  obtain ⟨u, hexec, -, hkept⟩ := unitsWriteOnlyTheirOwnState i s
  rw [next_inj (h.symm.trans hexec)]
  exact hkept hu

/-- A unit A command leaves the TLB (00_scope.md R2). -/
theorem exec_unitA_keeps_unitB (i : Instr) (s t : State) (h : exec i s = .next t) (hu : unitB i = false) :
    t.tlb = s.tlb ∧ t.rr = s.rr := by
  obtain ⟨u, hexec, hkept, -⟩ := unitsWriteOnlyTheirOwnState i s
  rw [next_inj (h.symm.trans hexec)]
  exact hkept hu

theorem exec_bankStep (i : Instr) (s t : State) (h : exec i s = .next t) : BankStep s i t.cp0 := by
  induction i using Instr.byFamily with
  | read r =>
    obtain rfl := next_inj ((exec_readInstr r s).symm.trans h)
    exact .kept _
  | write r v =>
    obtain rfl := next_inj ((exec_writeInstr r v s).symm.trans h)
    exact .write r v
  | preInsn ext pc ds =>
    obtain rfl := next_inj ((exec_preInsn ext pc ds s).symm.trans h)
    split
    · exact .interrupt ext pc ds
    · exact .tick ext pc ds
  | raise exc badva pc ds =>
    obtain rfl := next_inj ((exec_raise exc badva pc ds s).symm.trans h)
    exact .raise exc badva pc ds
  | eret =>
    obtain rfl := next_inj ((exec_eret s).symm.trans h)
    exact .eret
  | priv =>
    obtain rfl := next_inj ((exec_priv s).symm.trans h)
    exact .kept _
  | trapQuery =>
    obtain rfl := next_inj ((exec_trapQuery s).symm.trans h)
    exact .kept _
  | invalidate va asid =>
    rw [(exec_unitB_keeps_unitA _ s t h rfl).1]
    exact .kept _
  | resolve desc va =>
    rw [(exec_unitB_keeps_unitA _ s t h rfl).1]
    exact .kept _

theorem BankStep.keeps_bankInv {s : State} {i : Instr} {b : Cp0} (h : BankStep s i b) (hc : s.cfg.wellFormed = true)
    (hb : BankInv s.cfg s.cp0) : BankInv s.cfg b := by
  have hrange := hb.randomInRange
  cases h with
  | kept => exact hb
  | write r v => exact hb.of_sameFixed (writtenBank_sameFixed _ _ v r) (writtenBank_randomInRange _ hc _ v r hrange)
  | tick ext pc ds => exact hb.of_sameFixed (tick_sameFixed _ ext _) (tick_randomInRange _ ext _ hrange)
  | interrupt ext pc ds =>
    exact hb.of_sameFixed ((tick_sameFixed _ ext _).trans (takeException_sameFixed _ excInt 0 pc ds _))
      (takeException_randomInRange _ excInt 0 pc ds _ (tick_randomInRange _ ext _ hrange))
  | raise exc badva pc ds =>
    exact hb.of_sameFixed (takeException_sameFixed _ exc badva pc ds s)
      (takeException_randomInRange _ exc badva pc ds s hrange)
  | eret =>
    exact hb.of_sameFixed (returnFromException_sameFixed _ _) (by simpa [RandomInRange] using hrange)

/-! ## Registers that only software writes -/

/-- The registers that some command other than their own CSR_WRITE sets: the counters and the ones a trap or a return
writes. -/
def hardwareWritten : Csr → Bool
  | .random | .count | .cause | .status | .epc | .badVAddr | .context => true
  | _ => false

theorem tick_frame (c : Config) (ext : BitVec 5) (b : Cp0) (q : Csr) (hq : hardwareWritten q = false) :
    getCsr (tick c ext b) q = getCsr b q := by
  cases q
  case random | count | cause => cases hq
  all_goals rfl

theorem takeException_frame_of_software (exc : BitVec 5) (badva pc : Word) (ds : Bool) (s : State) (q : Csr)
    (hq : hardwareWritten q = false) : getCsr (takeException exc badva pc ds s).cp0 q = getCsr s.cp0 q := by
  apply takeException_frame
  refine ⟨?_, ?_, ?_, ?_, ?_⟩ <;> (rintro rfl; cases hq)

theorem returnFromException_frame (b : Cp0) (q : Csr) (hq : q ≠ .status) :
    getCsr (returnFromException b).2 q = getCsr b q := by
  unfold returnFromException
  split <;> exact getCsr_setCsr_of_ne b _ .status q hq

/-- A register that no hardware event writes is left alone, or takes the masked value of its own CSR_WRITE. -/
theorem BankStep.software_register {s : State} {i : Instr} {b : Cp0} (h : BankStep s i b) (q : Csr)
    (hq : hardwareWritten q = false) : getCsr b q = getCsr s.cp0 q ∨
      ∃ v, i = q.writeInstr v ∧ getCsr b q = maskedWrite (writeMask s.cfg q) (getCsr s.cp0 q) v := by
  have ne_of_hardware : ∀ r, hardwareWritten r = true → q ≠ r := by
    rintro r hr rfl
    exact absurd (hq.symm.trans hr) (by decide)
  cases h with
  | kept => exact .inl rfl
  | write r v =>
    by_cases hqr : q = r
    · subst hqr
      exact .inr ⟨v, rfl, getCsr_writtenBank_self s.cfg s.cp0 v q⟩
    · exact .inl (getCsr_writtenBank_of_ne s.cfg s.cp0 v r q hqr (ne_of_hardware _ rfl) (ne_of_hardware _ rfl))
  | tick ext pc ds => exact .inl (tick_frame s.cfg ext s.cp0 q hq)
  | interrupt ext pc ds =>
    exact .inl ((takeException_frame_of_software excInt 0 pc ds _ q hq).trans (tick_frame s.cfg ext s.cp0 q hq))
  | raise exc badva pc ds => exact .inl (takeException_frame_of_software exc badva pc ds s q hq)
  | eret => exact .inl (returnFromException_frame s.cp0 q (ne_of_hardware _ rfl))

/-! ## The error level -/

theorem takeException_erl (exc : BitVec 5) (badva pc : Word) (ds : Bool) (s : State) :
    (takeException exc badva pc ds s).cp0.status.getLsbD 2 = s.cp0.status.getLsbD 2 := by
  have hbit : (0x00000002#32).getLsbD 2 = false := by decide
  rw [takeException_status, BitVec.getLsbD_or, hbit, Bool.or_false]

theorem returnFromException_erl (b : Cp0) (h : b.status.getLsbD 2 = false) :
    (returnFromException b).2.status.getLsbD 2 = false := by
  have herl : statusERL b.status = false := h
  rw [returnFromException_status, herl, if_neg (by decide), setStatusEXL, getLsbD_insertBit _ _ _ _ (by decide),
    if_neg (by decide), h]

/-- `ERL` rises only by a CSR_WRITE of `Status` whose value has it set. -/
theorem BankStep.erl_rises {s : State} {i : Instr} {b : Cp0} (h : BankStep s i b)
    (hclear : s.cp0.status.getLsbD 2 = false) (hset : b.status.getLsbD 2 = true) :
    ∃ v : Word, i = .csrWriteStatus v ∧ v.getLsbD 2 = true := by
  have not_kept : ∀ {w : Word}, w.getLsbD 2 = true → w.getLsbD 2 = s.cp0.status.getLsbD 2 → False := by
    intro w hw hkept
    rw [hkept, hclear] at hw
    cases hw
  cases h with
  | kept => exact (not_kept hset rfl).elim
  | write r v =>
    by_cases hr : r = .status
    · subst hr
      refine ⟨v, rfl, ?_⟩
      have hmask : (0x0040FF1F#32).getLsbD 2 = true := by decide
      have hwritten : (writtenBank s.cfg s.cp0 v .status).status = maskedWrite 0x0040FF1F#32 s.cp0.status v := rfl
      rwa [hwritten, getLsbD_maskedWrite, hmask, if_pos rfl] at hset
    · have hstatus : (writtenBank s.cfg s.cp0 v r).status = s.cp0.status :=
        getCsr_writtenBank_of_ne s.cfg s.cp0 v r .status (Ne.symm hr) (by decide) (by decide)
      exact (not_kept hset (by rw [hstatus])).elim
  | tick ext pc ds => exact (not_kept hset rfl).elim
  | interrupt ext pc ds => exact (not_kept hset (takeException_erl excInt 0 pc ds _)).elim
  | raise exc badva pc ds => exact (not_kept hset (takeException_erl exc badva pc ds s)).elim
  | eret =>
    rw [returnFromException_erl s.cp0 hclear] at hset
    cases hset

/-! ## The trap pair -/

/-- Every command but PRE_INSN and RAISE leaves the trap pair. -/
theorem exec_keeps_trapPair (i : Instr) (s t : State) (h : exec i s = .next t)
    (hp : ∀ ext pc ds, i ≠ .preInsn ext pc ds) (hr : ∀ exc badva pc ds, i ≠ .raise exc badva pc ds) :
    t.trapPending = s.trapPending ∧ t.trapTarget = s.trapTarget := by
  induction i using Instr.byFamily with
  | read r => obtain rfl := next_inj ((exec_readInstr r s).symm.trans h); exact ⟨rfl, rfl⟩
  | write r v => obtain rfl := next_inj ((exec_writeInstr r v s).symm.trans h); exact ⟨rfl, rfl⟩
  | preInsn ext pc ds => exact absurd rfl (hp ext pc ds)
  | raise exc badva pc ds => exact absurd rfl (hr exc badva pc ds)
  | eret => obtain rfl := next_inj ((exec_eret s).symm.trans h); exact ⟨rfl, rfl⟩
  | priv => obtain rfl := next_inj ((exec_priv s).symm.trans h); exact ⟨rfl, rfl⟩
  | trapQuery => obtain rfl := next_inj ((exec_trapQuery s).symm.trans h); exact ⟨rfl, rfl⟩
  | invalidate va asid => exact (exec_unitB_keeps_unitA _ s t h rfl).2
  | resolve desc va => exact (exec_unitB_keeps_unitA _ s t h rfl).2

/-- Everything a command can do to `trap_target`: keep it, or aim at the base and offset of a trap. -/
theorem exec_trapTarget (i : Instr) (s t : State) (h : exec i s = .next t) : t.trapTarget = s.trapTarget ∨
    ∃ (b : Cp0) (exc : BitVec 5), b.ebase = s.cp0.ebase ∧
      t.trapTarget = trapBase b + if statusEXL b.status then offGeneral else trapOffset b exc := by
  cases i with
  | preInsn ext pc ds =>
    obtain rfl := next_inj ((exec_preInsn ext pc ds s).symm.trans h)
    split
    · exact .inr ⟨tick s.cfg ext s.cp0, excInt, rfl, rfl⟩
    · exact .inl rfl
  | raise exc badva pc ds =>
    obtain rfl := next_inj ((exec_raise exc badva pc ds s).symm.trans h)
    exact .inr ⟨s.cp0, exc, rfl, rfl⟩
  | _ => exact .inl (exec_keeps_trapPair _ s t h nofun nofun).2

/-- An offset inside the low 12 bits and a legal `EBase` add without a carry. -/
theorem add_offset_and_fixed (e off : Word) (he : e &&& 0xC0000FFF#32 = 0x80000000#32)
    (hoff : off &&& 0x00000FFF#32 = off) : (e + off) &&& 0xC0000FFF#32 = 0x80000000#32 ||| off := by
  have hfixed : off &&& 0xC0000FFF#32 = off := by
    rw [← hoff, BitVec.and_assoc]
    rfl
  have hdisjoint : e &&& off = 0 := by
    calc e &&& off = (e &&& 0xC0000FFF#32) &&& off := by rw [BitVec.and_assoc, BitVec.and_comm 0xC0000FFF#32, hfixed]
      _ = 0x80000000#32 &&& (off &&& 0x00000FFF#32) := by rw [he, hoff]
      _ = 0 := by rw [BitVec.and_comm off, ← BitVec.and_assoc]; simp
  rw [BitVec.add_eq_or_of_and_eq_zero e off hdisjoint, BitVec.and_or_distrib_right, he, hfixed]

/-- The offset of a trap, on top of the boot vector or of `EBase` (20_memory.md R66). -/
theorem trapOffset_cases (b : Cp0) (exc : BitVec 5) : trapOffset b exc = offRefill ∨ trapOffset b exc = offGeneral ∨
    statusBEV b.status = false ∧ trapOffset b exc = offInt := by
  unfold trapOffset
  split
  · exact .inl rfl
  · split
    · rename_i hint
      simp only [Bool.and_eq_true, Bool.not_eq_true'] at hint
      obtain ⟨-, hbev⟩ := hint
      exact .inr (.inr ⟨hbev, rfl⟩)
    · exact .inr (.inl rfl)

/-- Every trap of a bank with a legal `EBase` has a legal target. -/
theorem trapTargetLegal_of_ebase (b : Cp0) (exc : BitVec 5) (he : b.ebase &&& 0xC0000FFF#32 = 0x80000000#32) :
    trapTargetLegal (trapBase b + if statusEXL b.status then offGeneral else trapOffset b exc) := by
  have hoff : ∀ off, (off = offRefill ∨ off = offGeneral ∨ statusBEV b.status = false ∧ off = offInt) →
      trapTargetLegal (trapBase b + off) := by
    intro off h
    unfold trapBase trapTargetLegal
    cases hbev : statusBEV b.status with
    | true =>
      rcases h with rfl | rfl | ⟨hclear, -⟩
      · exact .inr (.inl rfl)
      · exact .inr (.inr (.inl rfl))
      · rw [hbev] at hclear; cases hclear
    | false =>
      rcases h with rfl | rfl | ⟨-, rfl⟩
      · exact .inr (.inr (.inr (.inl (add_offset_and_fixed _ offRefill he rfl))))
      · exact .inr (.inr (.inr (.inr (.inl (add_offset_and_fixed _ offGeneral he rfl)))))
      · exact .inr (.inr (.inr (.inr (.inr (add_offset_and_fixed _ offInt he rfl)))))
  split
  · exact hoff _ (.inr (.inl rfl))
  · exact hoff _ (trapOffset_cases b exc)

theorem exec_keeps_trapTargetLegal (i : Instr) (s t : State) (h : exec i s = .next t) (hb : BankInv s.cfg s.cp0)
    (ht : trapTargetLegal s.trapTarget) : trapTargetLegal t.trapTarget := by
  rcases exec_trapTarget i s t h with hkept | ⟨b, exc, hebase, htarget⟩
  · rwa [hkept]
  · rw [htarget]
    exact trapTargetLegal_of_ebase b exc (hebase ▸ hb.ebase)

/-! ## The TLB -/

/-- The entry a leaf makes for a well-formed address is a legal one (43_tlb_walker.md R157, R158). -/
theorem entryInv_leafEntry (c : Config) (pte va : DWord) (level : Level) (asid : Asid) (hva : canonical va = true)
    (hl : isLeaf c pte) : EntryInv (leafEntry c pte (leafSize level) va asid) := by
  obtain ⟨⟨-, hwr, -⟩, hrx⟩ := hl
  exact {
    vpa_aligned := pageBase_aligned (leafSize level) va
    vpa_canonical := canonical_pageBase (leafSize level) (leafSize_ne_invalid level) va hva
    ppa_aligned := and_not_and_self (frameAddr (ptePpn c pte)) _
    leaf := (Bool.or_eq_true _ _).mpr hrx
    writable_readable := hwr }

theorem tlbInv_map_invalidateEntry (c : Config) (tlb : List TlbEntry) (rr : Nat) (va : DWord) (asid : Asid)
    (h : TlbInv c tlb rr) : TlbInv c (tlb.map (invalidateEntry va asid)) rr where
  length := by rw [List.length_map, h.length]
  rr_lt := h.rr_lt
  entries := by
    intro e he hvalid
    obtain ⟨e', he', rfl⟩ := List.mem_map.mp he
    unfold invalidateEntry at hvalid ⊢
    split
    · next hsel => rw [if_pos hsel] at hvalid; exact absurd rfl hvalid
    · next hsel => rw [if_neg hsel] at hvalid; exact h.entries e' he' hvalid

theorem tlbInv_fillTlb (e : TlbEntry) (s : State) (h : TlbInv s.cfg s.tlb s.rr) (he : EntryInv e) :
    TlbInv s.cfg (fillTlb e s).tlb (fillTlb e s).rr where
  length := by rw [fillTlb_tlb, List.length_set, h.length]
  rr_lt := Nat.mod_lt _ (Nat.zero_lt_of_lt h.rr_lt)
  entries := by
    intro e' he' hvalid
    rcases List.mem_or_eq_of_mem_set he' with hold | rfl
    · exact h.entries e' hold hvalid
    · exact he

theorem exec_keeps_tlbInv (i : Instr) (s t : State) (h : exec i s = .next t) (hs : TlbInv s.cfg s.tlb s.rr) :
    TlbInv s.cfg t.tlb t.rr := by
  cases hu : unitB i with
  | false =>
    obtain ⟨htlb, hrr⟩ := exec_unitA_keeps_unitB i s t h hu
    rwa [htlb, hrr]
  | true =>
    cases i with
    | invalidate va asid =>
      obtain rfl := next_inj ((exec_invalidate va asid s).symm.trans h)
      exact tlbInv_map_invalidateEntry s.cfg s.tlb s.rr va asid hs
    | resolve desc va =>
      obtain rfl := next_inj ((exec_resolve desc va s).symm.trans h)
      rcases translate_cases desc va s with ⟨reason, reads, ht, -⟩ | ⟨e, -, -, ht⟩ | ⟨pte, level, hwalk, -, hva, ht⟩
      · rw [ht]; exact hs
      · rw [ht]; exact hs
      · obtain ⟨-, -, hleaves⟩ := walkLevels_spec s.cfg s.mem va [.level2, .level1, .level0] (frameAddr (descPpn desc))
        obtain ⟨-, hleaf⟩ := hleaves pte level hwalk
        rw [ht]
        exact tlbInv_fillTlb _ s hs (entryInv_leafEntry s.cfg pte va level (descAsid desc) hva hleaf)
    | _ => cases hu

/-! ## Legal states -/

theorem bankInv_resetFor (c : Config) : BankInv c (Cp0.resetFor c) where
  index := BitVec.zero_and
  wired_le_random := BitVec.le_def.mpr (Nat.zero_le _)
  random_le_top := BitVec.le_refl _
  entryLo0 := BitVec.zero_and
  entryLo1 := BitVec.zero_and
  context := BitVec.zero_and
  pageMask := BitVec.zero_and
  entryHi := BitVec.zero_and
  status := show 0x00400000#32 &&& 0xFFBF00E0#32 = 0 by decide
  cause := BitVec.zero_and
  prid := rfl
  ebase := show 0x80000000#32 &&& 0xC0000FFF#32 = 0x80000000#32 by decide
  config0 := rfl
  config1 := rfl

theorem tlbInv_reset (c : Config) (hc : c.wellFormed = true) :
    TlbInv c (List.replicate c.sv39TlbEntries TlbEntry.reset) 0 where
  length := List.length_replicate
  rr_lt := sv39TlbEntries_pos_of_wellFormed c hc
  entries := by
    intro e he hvalid
    rw [List.eq_of_mem_replicate he] at hvalid
    exact absurd rfl hvalid

/-- RESET leads to a legal state under every legal configuration, over memory in canonical form. -/
theorem inv_resetBlock (s : State) (hc : s.cfg.wellFormed = true) (hm : Memory.wf s.mem = true) :
    (resetBlock s).Inv where
  cfg := hc
  bank := bankInv_resetFor s.cfg
  target := .inl rfl
  tlb := tlbInv_reset s.cfg hc
  mem := hm

theorem exec_keeps_inv (i : Instr) (s t : State) (h : exec i s = .next t) (hs : s.Inv) : t.Inv := by
  obtain ⟨u, hexec, hcfg, -, hmem, -⟩ := exec_completes i s
  obtain rfl := next_inj (hexec.symm.trans h)
  exact {
    cfg := hcfg ▸ hs.cfg
    bank := hcfg ▸ (exec_bankStep i s u h).keeps_bankInv hs.cfg hs.bank
    target := exec_keeps_trapTargetLegal i s u h hs.bank hs.target
    tlb := hcfg ▸ exec_keeps_tlbInv i s u h hs.tlb
    mem := hmem ▸ hs.mem }

theorem serveCommand_keeps_inv (c : Command) (s t : State) (h : serveCommand c s = .next t) (hs : s.Inv) : t.Inv := by
  cases hf : s.fatal with
  | true => rw [serveCommand_afterFatal c s hf] at h; cases h
  | false =>
    cases hd : decode c with
    | ok i => exact exec_keeps_inv i s t ((serveCommand_ok c s i hf hd).symm.trans h) hs
    | error e => rw [serveCommand_error c s e hf hd] at h; cases h

theorem serveInput_keeps_inv (input : Input) (s t : State) (h : serveInput input s = .next t) (hs : s.Inv) : t.Inv := by
  cases input with
  | port p =>
    cases hr : p.rst with
    | true =>
      obtain rfl := next_inj ((serveInput_reset p s hr).symm.trans h)
      exact inv_resetBlock s hs.cfg hs.mem
    | false =>
      cases hv : p.cmdValid with
      | true => exact serveCommand_keeps_inv p.cmd s t ((serveInput_command p s hr hv).symm.trans h) hs
      | false =>
        obtain rfl := next_inj ((serveInput_idle p s hr hv).symm.trans h)
        exact hs
  | memStore addr bytes =>
    obtain rfl := next_inj h
    exact { hs with mem := wf_storeBytes bytes s.mem addr hs.mem }
  | memFail addr n =>
    obtain rfl := next_inj h
    exact { hs with mem := wf_forgetBytes n s.mem addr hs.mem }

/-- What the outside does next is no part of the invariant. -/
theorem State.Inv.withInputs {s : State} (hs : s.Inv) (rest : List Input) : { s with inputs := rest }.Inv :=
  { hs with }

/-! ## The obligations -/

/-- Settles O10: one lemma each says that a command keeps the bank, the trap target and the TLB legal; RESET and the
platform's events are the other inputs a step can take. -/
theorem everyStepKeepsLegality : Obligations.EveryStepKeepsLegality := by
  intro s t hs hstep
  cases hi : s.inputs with
  | nil =>
    obtain rfl := next_inj ((step_nil s hs.cfg hi).symm.trans hstep)
    exact hs
  | cons input rest =>
    exact serveInput_keeps_inv input _ t ((step_cons s input rest hs.cfg hi).symm.trans hstep) (hs.withInputs rest)

/-- Settles O41. -/
theorem errorLevelSetOnlyBySoftware : Obligations.ErrorLevelSetOnlyBySoftware := by
  intro i s t h
  have hbank := exec_bankStep i s t h
  refine ⟨hbank.erl_rises, fun hchanged => ?_⟩
  rcases hbank.software_register .errorEpc rfl with hkept | ⟨v, hi, hwritten⟩
  · exact absurd hkept hchanged
  · have hv : t.cp0.errorEpc = v := hwritten.trans (maskedWrite_full s.cp0.errorEpc v)
    rw [hv]
    exact hi

/-- Settles O43: all seven are registers that no hardware event writes. -/
theorem storageRegistersChangeOnlyByTheirWrite : Obligations.StorageRegistersChangeOnlyByTheirWrite := by
  intro i s t h
  have only_own_write : ∀ q, hardwareWritten q = false → getCsr t.cp0 q ≠ getCsr s.cp0 q → ∃ v, i = q.writeInstr v := by
    intro q hq hchanged
    rcases (exec_bankStep i s t h).software_register q hq with hkept | ⟨v, hi, -⟩
    · exact absurd hkept hchanged
    · exact ⟨v, hi⟩
  exact ⟨only_own_write .entryHi rfl, only_own_write .entryLo0 rfl, only_own_write .entryLo1 rfl,
    only_own_write .pageMask rfl, only_own_write .index rfl, only_own_write .tagLo rfl, only_own_write .tagHi rfl⟩

/-- Settles O44. -/
theorem trapPairChangesOnlyByControllerTraps : Obligations.TrapPairChangesOnlyByControllerTraps :=
  ⟨exec_keeps_trapPair, fun exc badva pc ds s => ⟨_, exec_raise exc badva pc ds s, rfl⟩⟩

/-- Settles O9: the reset state is what RESET makes of itself. -/
theorem resetStateIsLegal : Obligations.ResetStateIsLegal :=
  inv_resetBlock State.reset (by decide) wf_reset

/-- Settles O27: the bits outside the write mask are the fixed top bits. -/
theorem csrWriteEBaseKeepsFixedBits : Obligations.CsrWriteEBaseKeepsFixedBits := by
  intro v s hb
  have hstored : maskedWrite 0x3FFFF000#32 s.cp0.ebase v = 0x80000000#32 ||| (v &&& 0x3FFFF000#32) := by
    rw [maskedWrite, ← hb.ebase]
    rfl
  rw [← hstored]
  exact ⟨_, _, exec_writeInstr .ebase v s, rfl, rfl⟩

/-- Settles O39. -/
theorem trapQueryShowsTrapPair : Obligations.TrapQueryShowsTrapPair :=
  fun s => ⟨⟨_, _, exec_trapQuery s, rfl, rfl⟩, rfl, rfl⟩

end Sys2Proof.Machine

/-! PROOFS of the family 20_memory. First the port and the entries, then which walks stop where, what RESOLVE answers in
each case and what it reads; then the obligations. -/

/-! ## The memory port -/

namespace Sys2Proof.Machine

/-- One more byte below the value of the bytes above it (20_memory.md R62). -/
theorem setWidth_or_shiftLeft_eq_append {n : Nat} (x : BitVec n) (b : Byte) :
    b.setWidth 64 ||| (x.setWidth 64 <<< 8) = (x ++ b).setWidth 64 := by
  apply BitVec.eq_of_getLsbD_eq
  intro i hi
  rw [BitVec.getLsbD_or, BitVec.getLsbD_shiftLeft, BitVec.getLsbD_setWidth, BitVec.getLsbD_setWidth,
    BitVec.getLsbD_setWidth, BitVec.getLsbD_append]
  by_cases hlow : i < 8
  · simp [hi, hlow]
  · have hhigh : i - 8 < 64 := by omega
    simp [hi, hlow, hhigh, BitVec.getLsbD_of_ge b i (by omega)]

/-- `LE64` of eight bytes: the first in bits 7:0, the last in bits 63:56 (20_memory.md R62). -/
theorem le64_eight (b0 b1 b2 b3 b4 b5 b6 b7 : Byte) : le64 [b0, b1, b2, b3, b4, b5, b6, b7] =
    b7 ++ b6 ++ b5 ++ b4 ++ b3 ++ b2 ++ b1 ++ b0 := by
  have hlast : le64 [b7] = b7.setWidth 64 := by simp [le64]
  have hcons : ∀ (b : Byte) (bs : List Byte), le64 (b :: bs) = b.setWidth 64 ||| (le64 bs <<< 8) := fun _ _ => rfl
  rw [hcons b0, hcons b1, hcons b2, hcons b3, hcons b4, hcons b5, hcons b6, hlast]
  simp only [setWidth_or_shiftLeft_eq_append]
  exact BitVec.setWidth_eq _

/-- The walker's addresses are multiples of 8 inside the 56-bit space (20_memory.md R61, R63). -/
theorem pteAddr_aligned (f : BitVec 44) (idx : BitVec 9) :
    (pteAddr (frameAddr f) idx).toNat % 8 = 0 ∧ (pteAddr (frameAddr f) idx).toNat < 2 ^ 56 := by
  have hf := f.isLt
  have hidx := idx.isLt
  rw [pteAddr_frameAddr, entryAddr, BitVec.toNat_ofNat]
  omega

/-! ## Entries -/

theorem pageBytes_toNat (z : PageSize) (h : z ≠ .invalid) : (pageBytes z).toNat = 2 ^ pageShift z := by
  have hk := (pageShift_range z h).2
  rw [pageBytes_eq z h, BitVec.toNat_twoPow]
  exact Nat.mod_eq_of_lt (Nat.pow_lt_pow_right (by decide) (by omega))

/-- The page address of a legal entry is a multiple of the page size, as a number. -/
theorem EntryInv.ppa_mod_eq_zero {e : TlbEntry} (h : EntryInv e) (hz : e.pagesize ≠ .invalid) :
    e.ppa.toNat % 2 ^ pageShift e.pagesize = 0 := by
  rw [← toNat_and_low e.ppa _ _ fun i hi => getLsbD_pageMask56 e.pagesize hz i hi, h.ppa_aligned]
  rfl

/-- The entry a leaf makes for an address matches that address under its id. -/
theorem entryMatches_leafEntry (c : Config) (pte va : DWord) (level : Level) (asid : Asid) :
    entryMatches (leafEntry c pte (leafSize level) va asid) va asid = true := by
  have hz := leafSize_ne_invalid level
  simp [entryMatches, covers, leafEntry, hz]

/-- A matching entry is selected by an INVALIDATE that names its address or 0, under its id or 0. -/
theorem selectedBy_of_entryMatches (va va0 : DWord) (asid asid0 : Asid) (e : TlbEntry) (hva : va0 = va ∨ va0 = 0)
    (hasid : asid0 = asid ∨ asid0 = 0) (hm : entryMatches e va asid = true) : selectedBy va0 asid0 e = true := by
  simp only [entryMatches, Bool.and_eq_true, Bool.or_eq_true, beq_iff_eq] at hm
  obtain ⟨hcovers, hid⟩ := hm
  obtain ⟨hvalid, -⟩ := (Bool.and_eq_true _ _).mp hcovers
  simp only [selectedBy, Bool.and_eq_true, Bool.or_eq_true, beq_iff_eq]
  refine ⟨⟨hvalid, ?_⟩, ?_⟩
  · rcases hasid with rfl | rfl
    · rcases hid with hid | hid
      · exact .inl (.inr hid)
      · exact .inr hid
    · exact .inl (.inl rfl)
  · rcases hva with rfl | rfl
    · exact .inr hcovers
    · exact .inl rfl

/-- After INVALIDATE of an address (or 0) under an id (or 0) an entry does not match them (20_memory.md R75). -/
theorem entryMatches_invalidateEntry (va va0 : DWord) (asid asid0 : Asid) (e : TlbEntry) (hva : va0 = va ∨ va0 = 0)
    (hasid : asid0 = asid ∨ asid0 = 0) : entryMatches (invalidateEntry va0 asid0 e) va asid = false := by
  unfold invalidateEntry
  split
  · rfl
  · next hsel =>
    rw [Bool.eq_false_iff]
    exact fun hm => hsel (selectedBy_of_entryMatches va va0 asid asid0 e hva hasid hm)

/-- The entry of lowest index that matches is the one found (43_tlb_walker.md R151). -/
theorem lookupEntry_eq_of_lowest (tlb : List TlbEntry) (va : DWord) (asid : Asid) (k : Nat) (e : TlbEntry)
    (hk : tlb[k]? = some e) (hm : entryMatches e va asid = true)
    (hlow : ∀ (j : Nat) (e' : TlbEntry), j < k → tlb[j]? = some e' → entryMatches e' va asid = false) :
    lookupEntry tlb va asid = some e := by
  obtain ⟨hlt, hget⟩ := List.getElem?_eq_some_iff.mp hk
  rw [lookupEntry, List.find?_eq_some_iff_getElem]
  refine ⟨hm, k, hlt, hget, fun j hj => ?_⟩
  rw [hlow j tlb[j] hj (List.getElem?_eq_getElem (hj.trans hlt))]
  rfl

/-- An entry put into a TLB in which nothing matched is the one found, whatever its slot. -/
theorem lookupEntry_set (tlb : List TlbEntry) (rr : Nat) (va : DWord) (asid : Asid) (e : TlbEntry)
    (hnone : lookupEntry tlb va asid = none) (hrr : rr < tlb.length) (hm : entryMatches e va asid = true) :
    lookupEntry (tlb.set rr e) va asid = some e := by
  rw [lookupEntry, List.find?_eq_none] at hnone
  refine lookupEntry_eq_of_lowest _ va asid rr e (List.getElem?_set_self hrr) hm fun j e' hj he' => ?_
  rw [List.getElem?_set_ne (Nat.ne_of_gt hj)] at he'
  exact Bool.eq_false_iff.mpr (hnone e' (List.mem_of_getElem? he'))

/-! ## Where a walk stops

`StopsWalk` says what the answer of the port at an address makes of a walk that reads it; the lemmas after it carry this
to the root, and through one and two pointers. -/

/-- The port's answer at address `a`, read at level `l`, ends a walk (43_tlb_walker.md R155 to R157). -/
inductive StopsWalk (c : Config) (m : Memory) (a : DWord) (l : Level) : WalkEnd → Prop
  | readFail (h : memRead m a 8 = none) : StopsWalk c m a l (.fault .memReadFail)
  | bad (pte : DWord) (reason : Reason) (h : pteAt m a pte) (hc : checkPte c pte = some reason) :
      StopsWalk c m a l (.fault reason)
  | leaf (pte : DWord) (h : pteAt m a pte) (hl : isLeaf c pte) : StopsWalk c m a l (.leaf pte l)

theorem walkLevels_stops (c : Config) (m : Memory) (va : DWord) (l : Level) (rest : List Level) (a : PAddr)
    (ending : WalkEnd) (h : StopsWalk c m (pteAddr a (vpn va l)) l ending) :
    walkLevels c m va (l :: rest) a = { reads := [pteAddr a (vpn va l)], ending := ending } := by
  cases h with
  | readFail h => exact walkLevels_readFail c m va l rest a h
  | bad pte reason h hc => exact walkLevels_bad c m va pte l rest a reason h hc
  | leaf pte h hl => exact walkLevels_leaf c m va pte l rest a h hl

/-- The walk's address of an entry of level 0, from a pointer. -/
theorem pteAddr_level0 (c : Config) (pte va : DWord) (h : c.sv39Ppn2Bits ≤ 26) :
    pteAddr (frameAddr (ptePpn c pte)) (vpn va .level0) = entryAddr (frameOf c pte) (va.toNat / 2 ^ 12 % 512) := by
  obtain ⟨-, -, h0⟩ := vpn_toNat va
  rw [pteAddr_frameAddr, h0, ptePpn_toNat c pte h]

section

variable (c : Config) (m : Memory) (desc va p2 p1 : DWord) (ending : WalkEnd)

theorem walk_stopsAtRoot
    (h : StopsWalk c m (entryAddr (desc.extractLsb' 0 44).toNat (va.toNat / 2 ^ 30 % 512)) .level2 ending) :
    walk c m (descPpn desc) va =
      { reads := [entryAddr (desc.extractLsb' 0 44).toNat (va.toNat / 2 ^ 30 % 512)], ending := ending } := by
  rw [← pteAddr_root] at h ⊢
  exact walkLevels_stops c m va .level2 _ _ ending h

theorem walk_stopsAtLevel1 (hc : c.sv39Ppn2Bits ≤ 26)
    (h2 : pteAt m (entryAddr (desc.extractLsb' 0 44).toNat (va.toNat / 2 ^ 30 % 512)) p2) (hp2 : isPointer c p2)
    (h : StopsWalk c m (entryAddr (frameOf c p2) (va.toNat / 2 ^ 21 % 512)) .level1 ending) :
    walk c m (descPpn desc) va =
      { reads := [entryAddr (desc.extractLsb' 0 44).toNat (va.toNat / 2 ^ 30 % 512),
          entryAddr (frameOf c p2) (va.toNat / 2 ^ 21 % 512)]
        ending := ending } := by
  rw [← pteAddr_root] at h2 ⊢
  rw [← pteAddr_level1 c p2 va hc] at h ⊢
  rw [walk, walkLevels_pointer c m va p2 .level2 _ _ h2 hp2, walkLevels_stops c m va .level1 _ _ ending h]

theorem walk_stopsAtLevel0 (hc : c.sv39Ppn2Bits ≤ 26)
    (h2 : pteAt m (entryAddr (desc.extractLsb' 0 44).toNat (va.toNat / 2 ^ 30 % 512)) p2) (hp2 : isPointer c p2)
    (h1 : pteAt m (entryAddr (frameOf c p2) (va.toNat / 2 ^ 21 % 512)) p1) (hp1 : isPointer c p1)
    (h : StopsWalk c m (entryAddr (frameOf c p1) (va.toNat / 2 ^ 12 % 512)) .level0 ending) :
    walk c m (descPpn desc) va =
      { reads := [entryAddr (desc.extractLsb' 0 44).toNat (va.toNat / 2 ^ 30 % 512),
          entryAddr (frameOf c p2) (va.toNat / 2 ^ 21 % 512), entryAddr (frameOf c p1) (va.toNat / 2 ^ 12 % 512)]
        ending := ending } := by
  rw [← pteAddr_root] at h2 ⊢
  rw [← pteAddr_level1 c p2 va hc] at h1 ⊢
  rw [← pteAddr_level0 c p1 va hc] at h ⊢
  rw [walk, walkLevels_pointer c m va p2 .level2 _ _ h2 hp2, walkLevels_pointer c m va p1 .level1 _ _ h1 hp1,
    walkLevels_stops c m va .level0 _ _ ending h]

end

/-- A walk reads the entry of the first level it visits first, whatever the port answers. -/
theorem walkLevels_reads_head (c : Config) (m : Memory) (va : DWord) (l : Level) (rest : List Level) (a : PAddr) :
    (walkLevels c m va (l :: rest) a).reads.head? = some (pteAddr a (vpn va l)) := by
  unfold walkLevels
  dsimp only
  split
  · rfl
  · split
    · rfl
    · split <;> rfl

/-! ## What RESOLVE answers and reads -/

/-- A miss records the reads of its walk, however it ends. -/
theorem resolveMiss_memReads (root : BitVec 44) (asid : Asid) (va : DWord) (s : State) :
    (resolveMiss root asid va s).out.memReads = (walk s.cfg s.mem root va).reads := by
  cases hw : walk s.cfg s.mem root va with | mk reads ending =>
  cases ending with
  | fault reason => rw [resolveMiss_fault root asid va s reads reason hw]; rfl
  | leaf pte level =>
    cases hm : makeEntry s.cfg pte level va asid with
    | none => rw [resolveMiss_misaligned root asid va pte s reads level hw hm]; rfl
    | some e => rw [resolveMiss_fill root asid va pte s reads level e hw hm]; rfl

/-- RESOLVE that misses reads the root table entry first. -/
theorem translate_miss_reads_root (desc va : DWord) (s : State) (h : misses desc va s) :
    (translateVa desc va s).out.memReads.head? =
      some (entryAddr (desc.extractLsb' 0 44).toNat (va.toNat / 2 ^ 30 % 512)) := by
  rw [translate_miss desc va s h, resolveMiss_memReads, walk, walkLevels_reads_head, pteAddr_root]

/-- RESOLVE succeeds only under mode 8. -/
theorem descMode_of_resOk (desc va : DWord) (s : State) (h : (translateVa desc va s).out.resOk = true) :
    descMode desc = 8#4 := by
  by_contra hmode
  rw [translate_unsupportedMode desc va s hmode] at h
  cases h

/-- RESOLVE of a miss whose walk faults. -/
theorem resolve_walkFault (desc va : DWord) (s : State) (reads : List DWord) (reason : Reason)
    (hmiss : misses desc va s) (hw : walk s.cfg s.mem (descPpn desc) va = { reads := reads, ending := .fault reason }) :
    completes (.resolve desc va) s s (faulted (reasonCode reason) reads) :=
  have ht := (translate_miss desc va s hmiss).trans (resolveMiss_fault _ _ va s reads reason hw)
  ⟨_, _, congrArg _ ht, rfl, rfl, rfl⟩

/-- RESOLVE of an aligned leaf, at whatever level the walk found it. -/
theorem resolve_alignedLeaf_fills (desc va pte : DWord) (s : State) (level : Level) (reads : List DWord)
    (hc : s.cfg.wellFormed = true) (hmiss : misses desc va s)
    (hw : walk s.cfg s.mem (descPpn desc) va = { reads := reads, ending := .leaf pte level })
    (hlow : frameOf s.cfg pte % 2 ^ (pageShift (leafSize level) - 12) = 0) :
    let shift := pageShift (leafSize level)
    let e := entryFor (leafSize level) (2 ^ shift) (frameOf s.cfg pte) pte va (desc.extractLsb' 44 16)
    completes (.resolve desc va) s (filled e s)
      (succeeded e (frameOf s.cfg pte * 4096 + va.toNat % 2 ^ shift) reads) := by
  have hfill := resolve_leaf_fills desc va pte s level reads hc hmiss hw (.inl hlow)
  dsimp only at hfill
  rwa [hlow, Nat.sub_zero] at hfill

/-- Every read of RESOLVE is one of the at most three of its walk. -/
theorem translate_reads (desc va : DWord) (s : State) : (translateVa desc va s).out.memReads.length ≤ 3 ∧
    ∀ a ∈ (translateVa desc va s).out.memReads, a.toNat % 8 = 0 ∧ a.toNat < 2 ^ 56 := by
  have hreads : (translateVa desc va s).out.memReads = [] ∨
      (translateVa desc va s).out.memReads = (walk s.cfg s.mem (descPpn desc) va).reads := by
    rcases translate_cases desc va s with ⟨reason, reads, ht, hr⟩ | ⟨e, -, -, ht⟩ | ⟨pte, level, -, -, -, ht⟩
    · rw [ht]; exact hr
    · rw [ht]; exact .inl rfl
    · rw [ht]; exact .inr rfl
  obtain ⟨hlen, haddr, -⟩ := walkLevels_spec s.cfg s.mem va [.level2, .level1, .level0] (frameAddr (descPpn desc))
  rcases hreads with h | h
  · rw [h]
    exact ⟨Nat.zero_le 3, nofun⟩
  · rw [h]
    refine ⟨hlen, fun a ha => ?_⟩
    obtain ⟨b, idx, rfl, rfl | ⟨f, rfl⟩⟩ := haddr a ha
    · exact pteAddr_aligned (descPpn desc) idx
    · exact pteAddr_aligned f idx

/-- No command but RESOLVE reads memory (20_memory.md R61). -/
theorem exec_memReads_of_ne_resolve (i : Instr) (s t : State) (h : exec i s = .next t)
    (hi : ∀ desc va, i ≠ .resolve desc va) : t.out.memReads = [] := by
  induction i using Instr.byFamily with
  | read r => obtain rfl := next_inj ((exec_readInstr r s).symm.trans h); rfl
  | write r v => obtain rfl := next_inj ((exec_writeInstr r v s).symm.trans h); cases r <;> rfl
  | preInsn ext pc ds => obtain rfl := next_inj ((exec_preInsn ext pc ds s).symm.trans h); split <;> rfl
  | raise exc badva pc ds => obtain rfl := next_inj ((exec_raise exc badva pc ds s).symm.trans h); rfl
  | eret => obtain rfl := next_inj ((exec_eret s).symm.trans h); rfl
  | priv => obtain rfl := next_inj ((exec_priv s).symm.trans h); rfl
  | trapQuery => obtain rfl := next_inj ((exec_trapQuery s).symm.trans h); rfl
  | invalidate va asid => obtain rfl := next_inj ((exec_invalidate va asid s).symm.trans h); rfl
  | resolve desc va => exact absurd rfl (hi desc va)

/-- RESOLVE issued where the lookup finds `e` completes with it, without a read, and changes nothing. -/
theorem resolve_hit (desc va : DWord) (s : State) (e : TlbEntry) (hmode : descMode desc = 8#4)
    (hva : canonical va = true) (hfound : lookupEntry s.tlb va (descAsid desc) = some e) :
    completes (.resolve desc va) s s (fun o => o.resOk = true ∧ o.resEntry = e ∧ o.resPa = physAddr e va ∧
      o.resolveReason = 0#4 ∧ o.diagBevChanged = false ∧ o.memReads = []) :=
  ⟨_, _, congrArg _ (translate_hit desc va s e hmode hva hfound), rfl, rfl, rfl, rfl, rfl, rfl⟩

/-- CSR_READ of any register completes with its whole value and changes nothing (41_csr_access.md R100). -/
theorem csrRead_drives (r : Csr) (s : State) :
    completes r.readInstr s s (fun o => o.resValue = getCsr s.cp0 r ∧ quiet o) :=
  ⟨_, _, exec_readInstr r s, rfl, rfl, rfl⟩

/-! ## The obligations -/

/-- Settles O47: INVALIDATE leaves no match, so RESOLVE misses, and a miss reads the root entry first. -/
theorem invalidateForcesNextWalk : Obligations.InvalidateForcesNextWalk := by
  intro desc va va0 asid0 s hmode hva hva0 hasid0
  let s1 := retire { s with tlb := s.tlb.map (invalidateEntry va0 asid0) }
  have hnone : ∀ e ∈ s1.tlb, entryMatches e va (desc.extractLsb' 44 16) = false := by
    intro e he
    obtain ⟨e', -, rfl⟩ := List.mem_map.mp he
    exact entryMatches_invalidateEntry va va0 _ asid0 e' hva0 hasid0
  exact ⟨s1, translateVa desc va s1, exec_invalidate va0 asid0 s, hnone, exec_resolve desc va s1,
    translate_miss_reads_root desc va s1 ⟨hmode, hva, hnone⟩⟩

/-- Settles O49. -/
theorem resolveHitAnswersFromTlb : Obligations.ResolveHitAnswersFromTlb := by
  intro desc va s k e hmode hva hk hm hlow
  exact resolve_hit desc va s e hmode ((canonical_iff va).mpr hva)
    (lookupEntry_eq_of_lowest s.tlb va (descAsid desc) k e hk hm hlow)

/-- Settles O50: the entry answered is the one the next lookup finds, be it found before or filled just now. -/
theorem repeatedResolveHits : Obligations.RepeatedResolveHits := by
  intro desc va s s1 mem htlb hexec hok
  obtain rfl := next_inj ((exec_resolve desc va s).symm.trans hexec)
  have hmode := descMode_of_resOk desc va s hok
  have again : ∀ (e : TlbEntry) (t : State), canonical va = true → lookupEntry t.tlb va (descAsid desc) = some e →
      completes (.resolve desc va) t t (fun o => o.resOk = true ∧ o.resEntry = e ∧ o.resPa = physAddr e va ∧
        o.resolveReason = 0#4 ∧ o.memReads = []) := by
    intro e t hva hfound
    obtain ⟨o, n, hnext, hok, hentry, hpa, hreason, -, hreads⟩ := resolve_hit desc va t e hmode hva hfound
    exact ⟨o, n, hnext, hok, hentry, hpa, hreason, hreads⟩
  rcases translate_cases desc va s with ⟨reason, reads, ht, -⟩ | ⟨e, hfound, hva, ht⟩ | ⟨pte, level, -, hnone, hva, ht⟩
  · rw [ht] at hok
    cases hok
  · rw [ht]
    exact again e _ hva hfound
  · have hrr : s.rr < s.tlb.length := htlb.length ▸ htlb.rr_lt
    rw [ht]
    exact again _ _ hva (lookupEntry_set s.tlb s.rr va _ _ hnone hrr (entryMatches_leafEntry s.cfg pte va level _))

/-- Settles O51. -/
theorem resolveMapsGigabytePage : Obligations.ResolveMapsGigabytePage := by
  intro desc va p2 s frame a2 e hc hmiss h2 hl hlow
  exact resolve_alignedLeaf_fills desc va p2 s .level2 _ hc hmiss (walk_rootLeaf s.cfg s.mem desc va p2 h2 hl) hlow

/-- Settles O52. -/
theorem resolveMapsTwoMegabytePage : Obligations.ResolveMapsTwoMegabytePage := by
  intro desc va p2 p1 s frame a2 a1 e hc hmiss h2 hp2 h1 hl hlow
  have hw := walk_level1Leaf s.cfg s.mem desc va p2 p1 (ppn2Bits_le_of_wellFormed _ hc) h2 hp2 h1 hl
  exact resolve_alignedLeaf_fills desc va p1 s .level1 _ hc hmiss hw hlow

/-- Settles O53: a 4 KB leaf has no frame bits below its page size. -/
theorem resolveMapsFourKilobytePage : Obligations.ResolveMapsFourKilobytePage := by
  intro desc va p2 p1 p0 s frame a2 a1 a0 e hc hmiss h2 hp2 h1 hp1 h0 hl
  have hw := walk_stopsAtLevel0 s.cfg s.mem desc va p2 p1 _ (ppn2Bits_le_of_wellFormed _ hc) h2 hp2 h1 hp1
    (.leaf p0 h0 hl)
  exact resolve_alignedLeaf_fills desc va p0 s .level0 _ hc hmiss hw (Nat.mod_one _)

/-- Settles O54: each of the four kinds stops the walk with its reason, at whatever level it is read. -/
theorem badTableEntryFaultsAtEveryLevel : Obligations.BadTableEntryFaultsAtEveryLevel := by
  intro desc va p2 p1 p s code a2 a1 a0 bad hc hmiss
  have h26 := ppn2Bits_le_of_wellFormed _ hc
  have stops : ∀ (a : DWord) (l : Level), bad a →
      ∃ reason, reasonCode reason = code ∧ StopsWalk s.cfg s.mem a l (.fault reason) := by
    rintro a l (⟨hfail, rfl⟩ | ⟨hp, hv, rfl⟩ | ⟨hp, hv, hr, hw, rfl⟩ | ⟨hp, hv, hwr, hres, rfl⟩)
    · exact ⟨.memReadFail, rfl, .readFail hfail⟩
    · exact ⟨.pteInvalid, rfl, .bad p _ hp (checkPte_invalid s.cfg p hv)⟩
    · exact ⟨.pteWNotR, rfl, .bad p _ hp (checkPte_wNotR s.cfg p hv hr hw)⟩
    · exact ⟨.pteReserved, rfl, .bad p _ hp (checkPte_reserved s.cfg p hv hwr hres)⟩
  refine ⟨fun hbad => ?_, fun h2 hp2 hbad => ?_, fun h2 hp2 h1 hp1 hbad => ?_⟩
  · obtain ⟨reason, rfl, hstop⟩ := stops a2 .level2 hbad
    exact resolve_walkFault desc va s _ reason hmiss (walk_stopsAtRoot s.cfg s.mem desc va _ hstop)
  · obtain ⟨reason, rfl, hstop⟩ := stops a1 .level1 hbad
    exact resolve_walkFault desc va s _ reason hmiss (walk_stopsAtLevel1 s.cfg s.mem desc va p2 _ h26 h2 hp2 hstop)
  · obtain ⟨reason, rfl, hstop⟩ := stops a0 .level0 hbad
    exact resolve_walkFault desc va s _ reason hmiss
      (walk_stopsAtLevel0 s.cfg s.mem desc va p2 p1 _ h26 h2 hp2 h1 hp1 hstop)

/-- Settles O58. -/
theorem resolveReadsAtMostThreeAlignedEntries : Obligations.ResolveReadsAtMostThreeAlignedEntries := by
  intro i s
  obtain ⟨t, hexec, -⟩ := exec_completes i s
  have hother := exec_memReads_of_ne_resolve i s t hexec
  refine ⟨t, hexec, ?_⟩
  by_cases hi : ∃ desc va, i = .resolve desc va
  · obtain ⟨desc, va, rfl⟩ := hi
    obtain rfl := next_inj ((exec_resolve desc va s).symm.trans hexec)
    obtain ⟨hlen, haddr⟩ := translate_reads desc va s
    exact ⟨hlen, haddr, hother⟩
  · rw [hother fun desc va h => hi ⟨desc, va, h⟩]
    exact ⟨Nat.zero_le 3, nofun, fun _ => rfl⟩

/-- Settles O59: the page address is a multiple of the page size, so the or has no carry to lose. -/
theorem offsetOrAndPlusAgree : Obligations.OffsetOrAndPlusAgree := by
  intro e va he hz
  rw [pageBytes_toNat e.pagesize hz]
  exact physAddr_toNat e va hz (he.ppa_mod_eq_zero hz)

/-- Settles O60. -/
theorem storeThenReadLittleEndian : Obligations.StoreThenReadLittleEndian := by
  intro s rest a b0 b1 b2 b3 b4 b5 b6 b7 hc hi
  let bytes := [b0, b1, b2, b3, b4, b5, b6, b7]
  have hread : memRead (storeBytes s.mem a bytes) a 8 = some bytes :=
    memRead_storeBytes bytes s.mem a (show 8 < 2 ^ 64 by decide)
  exact ⟨platformStore a bytes { s with inputs := rest }, step_cons s _ rest hc hi, hread,
    ⟨bytes, hread, le64_eight b0 b1 b2 b3 b4 b5 b6 b7⟩, readByte_storeBytes_of_ne bytes s.mem a⟩

/-- Settles O17: the law of one CSR_READ at each of the 21 registers. -/
theorem csrReadDrivesWholeRegister : Obligations.CsrReadDrivesWholeRegister := fun s =>
  ⟨csrRead_drives .index s, csrRead_drives .random s, csrRead_drives .entryLo0 s, csrRead_drives .entryLo1 s,
    csrRead_drives .context s, csrRead_drives .pageMask s, csrRead_drives .wired s, csrRead_drives .badVAddr s,
    csrRead_drives .count s, csrRead_drives .entryHi s, csrRead_drives .compare s, csrRead_drives .status s,
    csrRead_drives .cause s, csrRead_drives .epc s, csrRead_drives .prid s, csrRead_drives .ebase s,
    csrRead_drives .config0 s, csrRead_drives .config1 s, csrRead_drives .tagLo s, csrRead_drives .tagHi s,
    csrRead_drives .errorEpc s⟩

/-- Settles O48: the mode is tested before the address. -/
theorem resolveTestsModeThenAddress : Obligations.ResolveTestsModeThenAddress := by
  intro desc va s
  constructor
  · intro hmode
    exact ⟨_, _, congrArg _ (translate_unsupportedMode desc va s hmode), rfl, rfl, rfl⟩
  · intro hmode hva
    have hnoncanonical : canonical va = false := Bool.eq_false_iff.mpr fun h => hva ((canonical_iff va).mp h)
    exact ⟨_, _, congrArg _ (translate_nonCanonical desc va s hmode hnoncanonical), rfl, rfl, rfl⟩

end Sys2Proof.Machine

/-! PROOFS of the family 30_encoding. First the rows of the opcode table: which headers a row takes, and which row an
instruction of each family is. Then what the decoder answers, in both directions; then the obligations. -/

/-! ## The rows of the opcode table (30_encoding.md R81, R82) -/

namespace Sys2Proof

/-- A row that fixes the whole header takes its pattern alone. -/
theorem OpcodeRow.matchesHeader_of_fullMask (row : OpcodeRow) (h : BitVec 12) (hm : row.mask = 0xFFF#12) :
    row.matchesHeader h = true ↔ h = row.pattern := by
  have hall : h &&& 0xFFF#12 = h := BitVec.and_allOnes
  rw [OpcodeRow.matchesHeader, beq_iff_eq, hm, hall]

/-- The mask of the seven operation rows leaves the op code. -/
theorem header_and_opMask (h : BitVec 12) : h &&& 0xF00#12 = headerOp h ++ 0#8 := by
  have hmask : 0xF00#12 = BitVec.allOnes 4 ++ (0#5 ++ 0#3) := by decide
  conv_lhs => rw [header_eq_append h, hmask, BitVec.and_append, BitVec.and_append, BitVec.and_allOnes,
    BitVec.and_zero, BitVec.and_zero]
  rfl

theorem headerOp_append (op : BitVec 4) (low : BitVec 8) : headerOp (op ++ low) = op :=
  BitVec.extractLsb'_append_eq_left

/-- A row that fixes only the op code takes every header of that op code. -/
theorem OpcodeRow.matchesHeader_of_opMask (row : OpcodeRow) (h : BitVec 12) (op : BitVec 4) (hm : row.mask = 0xF00#12)
    (hp : row.pattern = op ++ 0#8) : row.matchesHeader h = true ↔ headerOp h = op := by
  rw [OpcodeRow.matchesHeader, beq_iff_eq, hm, hp, header_and_opMask]
  constructor
  · intro heq
    rw [← headerOp_append (headerOp h) 0#8, heq, headerOp_append]
  · intro hop
    rw [hop]

theorem matchesHeader_readInstr (r : Csr) (h : BitVec 12) :
    r.readInstr.row.matchesHeader h = true ↔ h = csrHeader 0x1#4 r := by
  have hrow : r.readInstr.row.mask = 0xFFF#12 ∧ r.readInstr.row.pattern = csrHeader 0x1#4 r := by cases r <;> decide
  rw [OpcodeRow.matchesHeader_of_fullMask _ h hrow.1, hrow.2]

/-- The row of a CSR_WRITE does not depend on the value written. -/
theorem row_writeInstr (r : Csr) (v : Word) : (r.writeInstr v).row = (r.writeInstr 0).row := by
  cases r <;> rfl

theorem matchesHeader_writeInstr (r : Csr) (v : Word) (h : BitVec 12) :
    (r.writeInstr v).row.matchesHeader h = true ↔ h = csrHeader 0x2#4 r := by
  have hrow : (r.writeInstr 0).row.mask = 0xFFF#12 ∧ (r.writeInstr 0).row.pattern = csrHeader 0x2#4 r := by
    cases r <;> decide
  rw [row_writeInstr, OpcodeRow.matchesHeader_of_fullMask _ h hrow.1, hrow.2]

open Laws.HeaderInTable in
/-- The rows of the 49 instructions, gathered. -/
theorem headerInTable (i : Instr) : Statement i := by
  cases i
  exacts [csrReadIndex, csrReadRandom, csrReadEntryLo0, csrReadEntryLo1, csrReadContext, csrReadPageMask, csrReadWired,
    csrReadBadVAddr, csrReadCount, csrReadEntryHi, csrReadCompare, csrReadStatus, csrReadCause, csrReadEpc,
    csrReadPrid, csrReadEbase, csrReadConfig0, csrReadConfig1, csrReadTagLo, csrReadTagHi, csrReadErrorEpc,
    csrWriteIndex _, csrWriteRandom _, csrWriteEntryLo0 _, csrWriteEntryLo1 _, csrWriteContext _,
    csrWritePageMask _, csrWriteWired _, csrWriteBadVAddr _, csrWriteCount _, csrWriteEntryHi _, csrWriteCompare _,
    csrWriteStatus _, csrWriteCause _, csrWriteEpc _, csrWritePrid _, csrWriteEbase _, csrWriteConfig0 _,
    csrWriteConfig1 _, csrWriteTagLo _, csrWriteTagHi _, csrWriteErrorEpc _, preInsn _ _ _, raise _ _ _ _, eret,
    priv, trapQuery, invalidate _ _, resolve _ _]

end Sys2Proof

/-! ## What the decoder answers (30_encoding.md R83, R86) -/

namespace Sys2Proof.Machine

/-- A CSR_READ lists no operand bus (30_encoding.md R82). -/
theorem operandsOn_readInstr (c : Command) (r : Csr) : operandsOn c r.readInstr := by
  cases r <;> exact trivial

/-- A CSR_WRITE lists the value bus alone (30_encoding.md R82). -/
theorem operandsOn_writeInstr (c : Command) (r : Csr) (v : Word) : operandsOn c (r.writeInstr v) ↔ c.opValue = v := by
  cases r <;> exact Iff.rfl

/-- The header of `c` is one of the row of `i`, and the operand buses of `i` hold its operands. -/
def presents (c : Command) (i : Instr) : Prop := i.row.matchesHeader c.header = true ∧ operandsOn c i

/-- The decoder reads no instruction that the command does not present. -/
theorem presents_of_decode (c : Command) (i : Instr) (h : decode c = .ok i) : presents c i := by
  have operation : ∀ (row : OpcodeRow) (op : BitVec 4), headerOp c.header = op → row.mask = 0xF00#12 →
      row.pattern = op ++ 0#8 → row.matchesHeader c.header = true :=
    fun row op hop hm hp => (row.matchesHeader_of_opMask c.header op hm hp).mpr hop
  rcases decode_eq_ok c i h with ⟨-, r, hr, rfl⟩ | ⟨-, r, hr, rfl⟩ | ⟨hop, rfl⟩ | ⟨hop, rfl⟩ | ⟨hop, rfl⟩ |
    ⟨hop, rfl⟩ | ⟨hop, rfl⟩ | ⟨hop, rfl⟩ | ⟨hop, rfl⟩
  · exact ⟨(matchesHeader_readInstr r _).mpr hr, operandsOn_readInstr c r⟩
  · exact ⟨(matchesHeader_writeInstr r _ _).mpr hr, (operandsOn_writeInstr c r _).mpr rfl⟩
  · exact ⟨operation _ _ hop rfl rfl, rfl, rfl, rfl⟩
  · exact ⟨operation _ _ hop rfl rfl, rfl, rfl, rfl, rfl⟩
  · exact ⟨operation _ _ hop rfl rfl, trivial⟩
  · exact ⟨operation _ _ hop rfl rfl, trivial⟩
  · exact ⟨operation _ _ hop rfl rfl, trivial⟩
  · exact ⟨operation _ _ hop rfl rfl, rfl, rfl⟩
  · exact ⟨operation _ _ hop rfl rfl, rfl, rfl⟩

/-- The decoder reads the instruction that the command presents. -/
theorem decode_of_presents (c : Command) (i : Instr) (h : presents c i) : decode c = .ok i := by
  obtain ⟨hmatch, hbus⟩ := h
  have operation : ∀ (op : BitVec 4), i.row.mask = 0xF00#12 → i.row.pattern = op ++ 0#8 → headerOp c.header = op :=
    fun op hm hp => (i.row.matchesHeader_of_opMask c.header op hm hp).mp hmatch
  induction i using Instr.byFamily with
  | read r => exact decode_readHeader c r ((matchesHeader_readInstr r _).mp hmatch)
  | write r v =>
    obtain rfl := (operandsOn_writeInstr c r v).mp hbus
    exact decode_writeHeader c r ((matchesHeader_writeInstr r _ _).mp hmatch)
  | preInsn ext pc ds =>
    obtain ⟨rfl, rfl, rfl⟩ := hbus
    simp [decode, operation 0x3#4 rfl rfl]
  | raise exc badva pc ds =>
    obtain ⟨rfl, rfl, rfl, rfl⟩ := hbus
    simp [decode, operation 0x4#4 rfl rfl]
  | eret => simp [decode, operation 0x5#4 rfl rfl]
  | priv => simp [decode, operation 0x6#4 rfl rfl]
  | trapQuery => simp [decode, operation 0x7#4 rfl rfl]
  | invalidate va asid =>
    obtain ⟨rfl, rfl⟩ := hbus
    simp [decode, operation 0x8#4 rfl rfl]
  | resolve desc va =>
    obtain ⟨rfl, rfl⟩ := hbus
    simp [decode, operation 0x9#4 rfl rfl]

/-- The encoder puts the operands of an instruction on the buses it lists (30_encoding.md R82, R87). -/
theorem operandsOn_encode (i : Instr) : operandsOn (encode i) i := by
  induction i using Instr.byFamily with
  | read r => exact operandsOn_readInstr _ r
  | write r v => exact (operandsOn_writeInstr _ r v).mpr (by cases r <;> rfl)
  | preInsn => exact ⟨rfl, rfl, rfl⟩
  | raise => exact ⟨rfl, rfl, rfl, rfl⟩
  | eret => exact trivial
  | priv => exact trivial
  | trapQuery => exact trivial
  | invalidate => exact ⟨rfl, rfl⟩
  | resolve => exact ⟨rfl, rfl⟩

/-- The decoder accepts the headers of the table and no other (30_encoding.md R86). -/
theorem wellFormed_iff_decodes (c : Command) : c.wellFormed = true ↔ ∃ i, decode c = .ok i := by
  constructor
  · exact decode_of_wellFormed c
  · rintro ⟨i, hi⟩
    exact List.any_eq_true.mpr ⟨i.row, (headerInTable i).1, (presents_of_decode c i hi).1⟩

/-- A CSR access that is not accepted is rejected by its pair (30_encoding.md R86 (c)). -/
theorem decodeCsr_ok_or_error (access : Csr → Instr) (h : BitVec 12) : (∃ i, decodeCsr access h = .ok i) ∨
    decodeCsr access h = .error (.unimplementedRegister (headerReg h) (headerSel h)) := by
  unfold decodeCsr
  split
  · exact .inl ⟨_, rfl⟩
  · exact .inr rfl

/-- A header of one of the two CSR op codes is decoded as a CSR access (30_encoding.md R86 (b), (c)). -/
theorem decode_of_csrOp (c : Command) (h : headerOp c.header = 1#4 ∨ headerOp c.header = 2#4) :
    ∃ access, decode c = decodeCsr access c.header := by
  rcases h with h | h
  · exact ⟨Csr.readInstr, by simp [decode, h]⟩
  · exact ⟨Csr.writeInstr c.opValue, by simp [decode, h]⟩

/-- An op code outside 1 to 9 is rejected by name (30_encoding.md R86 (d)). -/
theorem decode_of_undefinedOp (c : Command) (h : headerOp c.header = 0#4 ∨ 10 ≤ (headerOp c.header).toNat) :
    decode c = .error (.undefinedOperation (headerOp c.header)) := by
  have undefined : ∀ op : BitVec 4, op = 0#4 ∨ 10 ≤ op.toNat →
      ∀ known ∈ [0x1#4, 0x2#4, 0x3#4, 0x4#4, 0x5#4, 0x6#4, 0x7#4, 0x8#4, 0x9#4], (op == known) = false := by decide
  simp [decode, undefined _ h]

/-! ## The obligations -/

/-- Settles O1: decoding is presenting, and the encoder's command presents its instruction. -/
theorem decodeAndEncodeAgree : Obligations.DecodeAndEncodeAgree :=
  ⟨fun i => decode_of_presents _ i ⟨(headerInTable i).2, operandsOn_encode i⟩,
    fun c i => ⟨presents_of_decode c i, decode_of_presents c i⟩⟩

/-- Settles O3. -/
theorem decoderRejectsByName : Obligations.DecoderRejectsByName := by
  intro c
  refine ⟨wellFormed_iff_decodes c, fun hop hbad => ?_, decode_of_undefinedOp c⟩
  obtain ⟨access, hdecode⟩ := decode_of_csrOp c hop
  rw [hdecode]
  rcases decodeCsr_ok_or_error access c.header with ⟨i, hi⟩ | herror
  · rw [(wellFormed_iff_decodes c).mpr ⟨i, hdecode.trans hi⟩] at hbad
    contradiction
  · exact herror

/-- Settles O2, by comparing the rows within each of the three lists and then across them. -/
theorem opcodeTableRowsDisjoint : Obligations.OpcodeTableRowsDisjoint := by
  refine ⟨rfl, ?_⟩
  rw [opcodeTable, List.pairwise_append, List.pairwise_append]
  refine ⟨⟨?_, ?_, ?_⟩, ?_, ?_⟩ <;> decide

/-- Settles O4, by running the decoder on each header. -/
theorem writtenHeadersDecode : Obligations.WrittenHeadersDecode :=
  ⟨rfl, rfl, rfl, rfl, rfl, rfl, rfl, rfl, rfl, rfl, rfl, rfl⟩

/-- Settles O7: the `rst` pin alone selects RESET, and `resetBlock` writes out the reset table. -/
theorem resetPinSetsEveryState : Obligations.ResetPinSetsEveryState := by
  intro s p rest hc hi hr
  refine ⟨Outputs.reset, s.fresh, rfl, rfl, ?_⟩
  rw [step_cons s (.port p) rest hc hi, serveInput_reset p _ hr]
  rfl

end Sys2Proof.Machine

/-! PROOFS of the family 41_csr_access. First what a CSR_WRITE leaves in the bank and on the outputs, for the registers
that only store and for the three with a coupled effect; then which commands move `Cause.IP[7]`; then the
obligations. -/

/-! ## The effect of a CSR_WRITE -/

namespace Sys2Proof.Machine

/-- A masked write, with the mask of the bits it keeps written out. -/
theorem maskedWrite_of_complement (mask kept old v : Word) (h : ~~~mask = kept) :
    maskedWrite mask old v = (old &&& kept) ||| (v &&& mask) := by
  rw [maskedWrite, h]

/-- The registers whose CSR_WRITE does more than store the masked value: `Wired` (41_csr_access.md R108), `Compare`
(R112), `Status` (R113). -/
def hasCoupledEffect : Csr → Bool
  | .wired | .compare | .status => true
  | _ => false

/-- Without a coupled effect only the written register changes. -/
theorem writtenBank_of_uncoupled (c : Config) (b : Cp0) (v : Word) (r : Csr) (hr : hasCoupledEffect r = false) :
    writtenBank c b v r = setCsr b (maskedWrite (writeMask c r) (getCsr b r) v) r := by
  cases r
  case wired | compare | status => cases hr
  all_goals rfl

/-- In a legal bank nothing of the old `Wired` survives, and `Random` goes to the top (41_csr_access.md R108). -/
theorem writtenBank_wired (c : Config) (hc : c.wellFormed = true) (b : Cp0) (hb : BankInv c b) (v : Word) :
    writtenBank c b v .wired = { b with wired := v &&& c.topEntry, random := c.topEntry } := by
  have hreserved : b.wired &&& ~~~c.topEntry = 0 :=
    and_not_topEntry_of_le c hc b.wired (BitVec.le_trans hb.wired_le_random hb.random_le_top)
  rw [← maskedWrite_of_reserved c.topEntry b.wired v hreserved]
  rfl

/-- A `Compare` write clears `Cause.IP[7]` (41_csr_access.md R112). -/
theorem writtenBank_compare (c : Config) (b : Cp0) (v : Word) :
    writtenBank c b v .compare = { b with compare := v, cause := b.cause &&& 0xFFFF7FFF#32 } := by
  calc writtenBank c b v .compare
    _ = { b with compare := maskedWrite 0xFFFFFFFF#32 b.compare v, cause := setCauseTimer b.cause false } := rfl
    _ = { b with compare := v, cause := b.cause &&& 0xFFFF7FFF#32 } := by rw [maskedWrite_full, setCauseTimer_false]

/-- In a legal bank nothing of the old `Status` survives (41_csr_access.md R113). -/
theorem writtenBank_status (c : Config) (b : Cp0) (hb : BankInv c b) (v : Word) :
    writtenBank c b v .status = { b with status := v &&& 0x0040FF1F#32 } := by
  rw [← maskedWrite_of_reserved 0x0040FF1F#32 b.status v hb.status]
  rfl

theorem writtenOutputs_of_ne_status (n : Nat) (b b' : Cp0) (r : Csr) (hr : r ≠ .status) :
    writtenOutputs n b b' r = undriven n := by
  cases r
  case status => exact absurd rfl hr
  all_goals rfl

/-- A CSR_WRITE of any register but `Status` completes with the written bank and drives no output. -/
theorem csrWrite_completes (r : Csr) (v : Word) (s : State) (hr : r ≠ .status) :
    completes (r.writeInstr v) s { s with cp0 := writtenBank s.cfg s.cp0 v r } quiet := by
  refine ⟨_, _, exec_writeInstr r v s, ?_⟩
  rw [writtenOutputs_of_ne_status _ _ _ r hr]
  exact ⟨rfl, rfl⟩

/-- A CSR_WRITE without a coupled effect stores `w`, its masked write, and changes nothing else. -/
theorem csrWrite_stores (r : Csr) (hr : hasCoupledEffect r = false) (v w : Word) (s : State)
    (hw : maskedWrite (writeMask s.cfg r) (getCsr s.cp0 r) v = w) :
    completes (r.writeInstr v) s { s with cp0 := setCsr s.cp0 w r } quiet := by
  have hstatus : r ≠ .status := by rintro rfl; cases hr
  have hcompletes := csrWrite_completes r v s hstatus
  rwa [writtenBank_of_uncoupled _ _ _ r hr, hw] at hcompletes

/-- No command but a CSR_WRITE of `Status` reports a change of `BEV` (41_csr_access.md R113). -/
theorem exec_diagBevChanged_of_ne_statusWrite (i : Instr) (s t : State) (h : exec i s = .next t)
    (hi : ∀ v, i ≠ .csrWriteStatus v) : t.out.diagBevChanged = false := by
  induction i using Instr.byFamily with
  | read r => obtain rfl := next_inj ((exec_readInstr r s).symm.trans h); rfl
  | write r v =>
    have hr : r ≠ .status := by rintro rfl; exact hi v rfl
    obtain ⟨o, n, hexec, hbev, -⟩ := csrWrite_completes r v s hr
    obtain rfl := next_inj (hexec.symm.trans h)
    exact hbev
  | preInsn ext pc ds => obtain rfl := next_inj ((exec_preInsn ext pc ds s).symm.trans h); split <;> rfl
  | raise exc badva pc ds => obtain rfl := next_inj ((exec_raise exc badva pc ds s).symm.trans h); rfl
  | eret => obtain rfl := next_inj ((exec_eret s).symm.trans h); rfl
  | priv => obtain rfl := next_inj ((exec_priv s).symm.trans h); rfl
  | trapQuery => obtain rfl := next_inj ((exec_trapQuery s).symm.trans h); rfl
  | invalidate va asid => obtain rfl := next_inj ((exec_invalidate va asid s).symm.trans h); rfl
  | resolve desc va =>
    obtain rfl := next_inj ((exec_resolve desc va s).symm.trans h)
    rcases translate_cases desc va s with ⟨_, _, hfault, -⟩ | ⟨_, -, -, hhit⟩ | ⟨_, _, -, -, -, hfill⟩
    · rw [hfault]; rfl
    · rw [hhit]; rfl
    · rw [hfill]; rfl

/-! ## The timer-pending bit (60_exceptions.md R184) -/

theorem takeException_timer (exc : BitVec 5) (badva pc : Word) (ds : Bool) (s : State) :
    (takeException exc badva pc ds s).cp0.cause.getLsbD 15 = s.cp0.cause.getLsbD 15 := by
  rw [takeException_cause, setCauseExcCode, getLsbD_insertField _ _ _ _ (by decide), if_neg (by decide)]
  split
  · rfl
  · rw [setCauseBD, getLsbD_insertBit _ _ _ _ (by decide), if_neg (by decide)]

theorem setCauseLines_timer (w : Word) (ext : BitVec 5) : (setCauseLines w ext).getLsbD 15 = w.getLsbD 15 := by
  rw [setCauseLines, getLsbD_insertField _ _ _ _ (by decide), if_neg (by decide)]

/-- Latching the lines keeps the bit; the comparison only sets it (42_exception_ops.md R130). -/
theorem tick_timer (c : Config) (ext : BitVec 5) (b : Cp0) :
    (tick c ext b).cause.getLsbD 15 = b.cause.getLsbD 15 ∨
    b.count + 1 = b.compare ∧ (tick c ext b).cause.getLsbD 15 = true := by
  simp only [tick_cause, beq_iff_eq]
  split
  · refine .inr ⟨‹_›, ?_⟩
    rw [setCauseTimer, getLsbD_insertBit _ _ _ _ (by decide), if_pos rfl]
  · exact .inl (setCauseLines_timer b.cause ext)

/-- Of the writes only that of `Compare` reaches the bit; a `Cause` write has it outside its mask. -/
theorem writtenBank_timer (c : Config) (b : Cp0) (v : Word) (r : Csr) (hr : r ≠ .compare) :
    (writtenBank c b v r).cause.getLsbD 15 = b.cause.getLsbD 15 := by
  by_cases hcause : r = .cause
  · subst hcause
    have hwritten : (writtenBank c b v .cause).cause = maskedWrite 0x00800300#32 b.cause v := rfl
    rw [hwritten, getLsbD_maskedWrite, if_neg (by decide)]
  · have hkept : (writtenBank c b v r).cause = b.cause := by
      cases r
      case compare => exact absurd rfl hr
      case cause => exact absurd rfl hcause
      all_goals rfl
    rw [hkept]

/-- Everything a command can do to `Cause.IP[7]`: keep it, clear it by a `Compare` write, or set it by a PRE_INSN whose
incremented `Count` equals `Compare`. -/
theorem BankStep.timer {s : State} {i : Instr} {b : Cp0} (h : BankStep s i b) :
    b.cause.getLsbD 15 = s.cp0.cause.getLsbD 15 ∨
    ((∃ v, i = .csrWriteCompare v) ∧ b.cause.getLsbD 15 = false) ∨
    ((∃ ext pc ds, i = .preInsn ext pc ds) ∧ s.cp0.count + 1 = s.cp0.compare ∧ b.cause.getLsbD 15 = true) := by
  cases h with
  | kept => exact .inl rfl
  | write r v =>
    by_cases hr : r = .compare
    · subst hr
      refine .inr (.inl ⟨⟨v, rfl⟩, ?_⟩)
      rw [writtenBank_compare, BitVec.getLsbD_and]
      exact Bool.and_false _
    · exact .inl (writtenBank_timer s.cfg s.cp0 v r hr)
  | tick ext pc ds => exact (tick_timer s.cfg ext s.cp0).imp_right fun hset => .inr ⟨⟨ext, pc, ds, rfl⟩, hset⟩
  | interrupt ext pc ds =>
    rw [takeException_timer]
    exact (tick_timer s.cfg ext s.cp0).imp_right fun hset => .inr ⟨⟨ext, pc, ds, rfl⟩, hset⟩
  | raise exc badva pc ds => exact .inl (takeException_timer exc badva pc ds s)
  | eret => exact .inl (by rw [returnFromException_cause])

/-! ## The obligations -/

/-- Settles O23. -/
theorem csrWriteWiredResetsRandom : Obligations.CsrWriteWiredResetsRandom := by
  intro v s hc hb
  have hcompletes := csrWrite_completes .wired v s (by decide)
  rwa [writtenBank_wired s.cfg hc s.cp0 hb v] at hcompletes

/-- Settles O25: bit 22 is inside the write mask, so the new `BEV` is the value's. -/
theorem csrWriteStatusReportsBevChange : Obligations.CsrWriteStatusReportsBevChange := by
  constructor
  · intro v s hb
    have hexec := exec_writeInstr .status v s
    rw [writtenBank_status s.cfg s.cp0 hb v] at hexec
    have hbev : statusBEV (v &&& 0x0040FF1F#32) = v.getLsbD 22 := by
      rw [statusBEV, BitVec.getLsbD_and]
      exact Bool.and_true _
    exact ⟨_, _, hexec, congrArg (s.cp0.status.getLsbD 22 != ·) hbev, rfl⟩
  · intro i s hi
    obtain ⟨t, hexec, -⟩ := exec_completes i s
    exact ⟨t, hexec, exec_diagBevChanged_of_ne_statusWrite i s t hexec hi⟩

/-- Settles O42, by the three things a command can do to the bit. -/
theorem timerBitHeldUntilCompareWrite : Obligations.TimerBitHeldUntilCompareWrite := by
  intro i s t h
  rcases (exec_bankStep i s t h).timer with hkept | ⟨⟨v, hi⟩, hcleared⟩ | ⟨hi, hmatch, hset⟩
  · exact ⟨fun hpending _ => hkept.trans hpending, fun hclear hset => nomatch hset.symm.trans (hkept.trans hclear)⟩
  · exact ⟨fun _ hne => absurd hi (hne v), fun _ hset => nomatch hset.symm.trans hcleared⟩
  · exact ⟨fun _ _ => hset, fun _ _ => ⟨hi, hmatch⟩⟩

/-- Settles O18: the five write masks are full. -/
theorem csrWriteStoresWholeWord : Obligations.CsrWriteStoresWholeWord := fun v s =>
  ⟨csrWrite_stores .count rfl v v s (maskedWrite_full _ v), csrWrite_stores .epc rfl v v s (maskedWrite_full _ v),
    csrWrite_stores .tagLo rfl v v s (maskedWrite_full _ v), csrWrite_stores .tagHi rfl v v s (maskedWrite_full _ v),
    csrWrite_stores .errorEpc rfl v v s (maskedWrite_full _ v)⟩

/-- Settles O19: the four write masks are empty, so each register stores its old value. -/
theorem csrWriteToReadOnlyRegisterIsDropped : Obligations.CsrWriteToReadOnlyRegisterIsDropped := fun v s =>
  ⟨csrWrite_stores .random rfl v _ s (maskedWrite_zero s.cp0.random v),
    csrWrite_stores .badVAddr rfl v _ s (maskedWrite_zero s.cp0.badVAddr v),
    csrWrite_stores .prid rfl v _ s (maskedWrite_zero s.cp0.prid v),
    csrWrite_stores .config1 rfl v _ s (maskedWrite_zero s.cp0.config1 v)⟩

/-- Settles O20: the reserved bits of a legal bank are 0, and they are the bits outside the write mask. -/
theorem csrWriteStoresMaskedWord : Obligations.CsrWriteStoresMaskedWord := fun v s hb =>
  ⟨csrWrite_stores .entryLo0 rfl v _ s (maskedWrite_of_reserved 0x03FFFFFF#32 _ v hb.entryLo0),
    csrWrite_stores .entryLo1 rfl v _ s (maskedWrite_of_reserved 0x03FFFFFF#32 _ v hb.entryLo1),
    csrWrite_stores .pageMask rfl v _ s (maskedWrite_of_reserved 0x1FFFE000#32 _ v hb.pageMask),
    csrWrite_stores .entryHi rfl v _ s (maskedWrite_of_reserved 0xFFFFE0FF#32 _ v hb.entryHi)⟩

/-- Settles O21: the statement writes out the masked write under N1 - 1. -/
theorem csrWriteIndexTakesIndexBits : Obligations.CsrWriteIndexTakesIndexBits := fun v s =>
  csrWrite_stores .index rfl v _ s rfl

/-- Settles O22: outside the write mask lie `BadVPN2` and bits 3:0, and these are 0 in a legal bank. -/
theorem csrWriteContextTakesPteBase : Obligations.CsrWriteContextTakesPteBase := by
  intro v s hb
  have hkept : s.cp0.context &&& 0x007FFFFF#32 = s.cp0.context &&& 0x007FFFF0#32 := by
    calc s.cp0.context &&& (0x007FFFF0#32 ||| 0x0000000F#32)
      _ = (s.cp0.context &&& 0x007FFFF0#32) ||| (s.cp0.context &&& 0x0000000F#32) := BitVec.and_or_distrib_left
      _ = s.cp0.context &&& 0x007FFFF0#32 := by rw [hb.context]; exact BitVec.or_zero
  rw [← hkept]
  exact csrWrite_stores .context rfl v _ s (maskedWrite_of_complement 0xFF800000#32 0x007FFFFF#32 s.cp0.context v rfl)

/-- Settles O24. -/
theorem csrWriteCompareClearsTimer : Obligations.CsrWriteCompareClearsTimer := by
  intro v s
  have hcompletes := csrWrite_completes .compare v s (by decide)
  rwa [writtenBank_compare] at hcompletes

/-- Settles O26: 0xFF7FFCFF is the complement of the write mask. -/
theorem csrWriteCauseTakesSoftwareBits : Obligations.CsrWriteCauseTakesSoftwareBits := fun v s =>
  csrWrite_stores .cause rfl v _ s (maskedWrite_of_complement 0x00800300#32 0xFF7FFCFF#32 s.cp0.cause v rfl)

/-- Settles O28: 0xFFFFFFF8 is the complement of the write mask. -/
theorem csrWriteConfig0TakesK0 : Obligations.CsrWriteConfig0TakesK0 := fun v s =>
  csrWrite_stores .config0 rfl v _ s (maskedWrite_of_complement 0x00000007#32 0xFFFFFFF8#32 s.cp0.config0 v rfl)

/-- Settles O29: no coupled effect reaches the written register itself. -/
theorem writeThenReadLaw : Obligations.WriteThenReadLaw := fun r v s =>
  ⟨_, _, exec_writeInstr r v s, exec_readInstr r _, getCsr_writtenBank_self s.cfg s.cp0 v r⟩

end Sys2Proof.Machine

/-! PROOFS of the family 42_exception_ops. First what an exception and a return leave in the bank and on the outputs,
from normal and from exception level; then the counting of PRE_INSN, and the privilege level; then the obligations. -/

/-! ## Taking an exception (42_exception_ops.md R132 to R135) -/

namespace Sys2Proof.Machine

theorem trapBase_eq (b : Cp0) : trapBase b = if b.status.getLsbD 22 = true then 0xBFC00200#32 else b.ebase := rfl

/-- The offset of a trap from normal level, by kind. -/
theorem trapOffset_eq (b : Cp0) (exc : BitVec 5) : trapOffset b exc =
    if exc = 2#5 ∨ exc = 3#5 then 0x000#32
    else if exc = 0#5 ∧ b.cause.getLsbD 23 = true ∧ b.status.getLsbD 22 = false then 0x200#32
    else 0x180#32 := by
  simp [trapOffset, excTlbl, excTlbs, excInt, causeIV, statusBEV, offRefill, offInt, offGeneral, and_assoc]

/-- `Context` after an exception: kinds 1 to 5 record the page number of the faulting address (42_exception_ops.md
R135). -/
def recordedContext (exc : BitVec 5) (badva context : Word) : Word :=
  if 1 ≤ exc.toNat ∧ exc.toNat ≤ 5 then (context &&& 0xFF80000F#32) ||| ((badva >>> 13) <<< 4) else context

/-- The bank after an exception: the five registers it can write, and the others as they were. -/
theorem takeException_bank (exc : BitVec 5) (badva pc : Word) (ds : Bool) (s : State) :
    (takeException exc badva pc ds s).cp0 =
      { s.cp0 with
        epc := if statusEXL s.cp0.status then s.cp0.epc else if ds then pc - 4 else pc
        status := s.cp0.status ||| 0x00000002#32
        cause := setCauseExcCode (if statusEXL s.cp0.status then s.cp0.cause else setCauseBD s.cp0.cause ds) exc
        badVAddr := if 1 ≤ exc.toNat ∧ exc.toNat ≤ 5 then badva else s.cp0.badVAddr
        context := recordedContext exc badva s.cp0.context } := by
  apply Cp0.eq_of_getCsr
  intro r
  cases r
  case epc => exact takeException_epc exc badva pc ds s
  case status => exact takeException_status exc badva pc ds s
  case cause => exact takeException_cause exc badva pc ds s
  case badVAddr => simp only [getCsr, takeException_badVAddr, recordsAddress_iff]
  case context => simp only [getCsr, recordedContext, takeException_context, recordsAddress_iff, setContextBadVPN2_eq]
  all_goals exact takeException_frame exc badva pc ds s _ (by decide)

/-- Setting `EXL` leaves the other bits of `Status`. -/
theorem getLsbD_setEXL (status : Word) (i : Nat) :
    (status ||| 0x00000002#32).getLsbD i = if i = 1 then true else status.getLsbD i := by
  rw [← setStatusEXL_true, setStatusEXL, getLsbD_insertBit _ _ _ _ (by decide)]

/-- In exception level setting `EXL` changes nothing. -/
theorem setEXL_of_exceptionLevel (status : Word) (h : status.getLsbD 1 = true) : status ||| 0x00000002#32 = status := by
  apply BitVec.eq_of_getLsbD_eq
  intro i _
  rw [getLsbD_setEXL]
  split
  · subst i; exact h.symm
  · rfl

/-- From normal level, setting `EXL` and clearing it again restores `Status`. -/
theorem clearEXL_setEXL (status : Word) (h : status.getLsbD 1 = false) :
    (status ||| 0x00000002#32) &&& 0xFFFFFFFD#32 = status := by
  apply BitVec.eq_of_getLsbD_eq
  intro i _
  rw [← setStatusEXL_false, setStatusEXL, getLsbD_insertBit _ _ _ _ (by decide)]
  split
  · subst i; exact h.symm
  · rw [getLsbD_setEXL, if_neg ‹_›]

/-- An exception from normal level (42_exception_ops.md R132 to R135). -/
theorem takeException_of_normal (exc : BitVec 5) (badva pc : Word) (ds : Bool) (s : State)
    (h : s.cp0.status.getLsbD 1 = false) : takeException exc badva pc ds s =
      { s with
        trapPending := true
        trapTarget := trapBase s.cp0 + trapOffset s.cp0 exc
        cp0 := { s.cp0 with
          epc := if ds then pc - 4 else pc
          status := s.cp0.status ||| 0x00000002#32
          cause := (s.cp0.cause &&& 0x7FFFFF83#32) ||| (if ds then 0x80000000#32 else 0#32) |||
            (exc.setWidth 32 <<< 2)
          badVAddr := if 1 ≤ exc.toNat ∧ exc.toNat ≤ 5 then badva else s.cp0.badVAddr
          context := recordedContext exc badva s.cp0.context } } := by
  have hnormal : statusEXL s.cp0.status = false := h
  have hbank := takeException_bank exc badva pc ds s
  have htarget := takeException_trapTarget exc badva pc ds s
  rw [hnormal, if_neg Bool.false_ne_true] at htarget
  simp only [hnormal, if_neg Bool.false_ne_true, setCauseExcCode_setCauseBD] at hbank
  rw [← hbank, ← htarget]
  rfl

/-- An exception in exception level: nothing of the return is saved (42_exception_ops.md R132 to R135). -/
theorem takeException_of_exceptionLevel (exc : BitVec 5) (badva pc : Word) (ds : Bool) (s : State)
    (h : s.cp0.status.getLsbD 1 = true) : takeException exc badva pc ds s =
      { s with
        trapPending := true
        trapTarget := trapBase s.cp0 + offGeneral
        cp0 := { s.cp0 with
          cause := setCauseExcCode s.cp0.cause exc
          badVAddr := if 1 ≤ exc.toNat ∧ exc.toNat ≤ 5 then badva else s.cp0.badVAddr
          context := recordedContext exc badva s.cp0.context } } := by
  have hlevel : statusEXL s.cp0.status = true := h
  have hbank := takeException_bank exc badva pc ds s
  have htarget := takeException_trapTarget exc badva pc ds s
  rw [hlevel, if_pos rfl] at htarget
  simp only [hlevel, if_pos, setEXL_of_exceptionLevel _ h] at hbank
  rw [← hbank, ← htarget]
  rfl

theorem causeExcCode_setCauseExcCode (w : Word) (exc : BitVec 5) :
    (setCauseExcCode w exc).extractLsb' 2 5 = exc := by
  apply BitVec.eq_of_getLsbD_eq
  intro i hi
  rw [BitVec.getLsbD_extractLsb', setCauseExcCode, getLsbD_insertField _ _ _ _ (by decide), if_pos (by omega)]
  simp [hi]

/-- Recording the kind leaves `Cause.BD`. -/
theorem causeBD_setCauseExcCode (w : Word) (exc : BitVec 5) :
    (setCauseExcCode w exc).getLsbD 31 = w.getLsbD 31 := by
  rw [setCauseExcCode, getLsbD_insertField _ _ _ _ (by decide), if_neg (by decide)]

/-! ## Returning from an exception (42_exception_ops.md R136) -/

theorem returnFromException_of_errorLevel (b : Cp0) (h : b.status.getLsbD 2 = true) :
    returnFromException b = (b.errorEpc, { b with status := b.status &&& 0xFFFFFFFB#32 }) := by
  rw [← setStatusERL_false]
  exact if_pos h

theorem returnFromException_of_noErrorLevel (b : Cp0) (h : b.status.getLsbD 2 = false) :
    returnFromException b = (b.epc, { b with status := b.status &&& 0xFFFFFFFD#32 }) := by
  rw [← setStatusEXL_false]
  exact if_neg (ne_true_of_eq_false h)

/-- ERET drives the return target and takes the bank that the return leaves. -/
theorem eret_completes (s : State) (target : Word) (b : Cp0) (h : returnFromException s.cp0 = (target, b)) :
    completes .eret s { s with cp0 := b } (fun o => o.eretTarget = target ∧ quiet o) := by
  have hexec := exec_eret s
  rw [h] at hexec
  exact ⟨_, _, hexec, rfl, rfl, rfl⟩

/-! ## PRE_INSN (42_exception_ops.md R130, R131, R139) -/

theorem mipsTlbEntries_bounds_of_wellFormed (c : Config) (h : c.wellFormed = true) :
    1 ≤ c.mipsTlbEntries ∧ c.mipsTlbEntries ≤ 64 := by
  simp only [Config.wellFormed, Config.mipsTlbEntriesOk, Bool.and_eq_true, List.contains_iff_mem, List.mem_cons,
    List.not_mem_nil, or_false] at h
  omega

/-- Above `Wired` one advance counts down by one. -/
theorem randomNext_of_gt (c : Config) (w : Word) (n : Nat) (hn : n < 2 ^ 32) (hw : w.toNat < n) :
    randomNext c (BitVec.ofNat 32 n) w = BitVec.ofNat 32 (n - 1) := by
  rw [randomNext_eq, if_neg (by rw [BitVec.toNat_ofNat]; omega)]
  bv_omega

theorem randomNext_self (c : Config) (w : Word) : randomNext c w w = BitVec.ofNat 32 (c.mipsTlbEntries - 1) :=
  if_pos (BitVec.le_refl w)

/-- As long as `Wired` is not passed, `k` advances count down by `k`. -/
theorem randomNext_iterate (c : Config) (w : Word) (n : Nat) (hn : n < 2 ^ 32) (k : Nat) (hk : w.toNat + k ≤ n) :
    (fun r => randomNext c r w)^[k] (BitVec.ofNat 32 n) = BitVec.ofNat 32 (n - k) := by
  induction k with
  | zero => rfl
  | succ k ih =>
    rw [Function.iterate_succ_apply', ih (by omega)]
    exact randomNext_of_gt c w (n - k) (by omega) (by omega)

/-- The bank after counting and latching: three registers change. -/
theorem tick_bank (c : Config) (ext : BitVec 5) (b : Cp0) :
    tick c ext b = { b with
      count := b.count + 1
      random := if b.random ≤ b.wired then BitVec.ofNat 32 (c.mipsTlbEntries - 1) else b.random - 1
      cause := if b.count + 1 = b.compare then
          ((b.cause &&& 0xFFFF83FF#32) ||| (ext.setWidth 32 <<< 10)) ||| 0x00008000#32
        else (b.cause &&& 0xFFFF83FF#32) ||| (ext.setWidth 32 <<< 10) } := by
  rw [← tick_cause_eq c ext b]
  rfl

/-- The external lines and the timer are not `IV`. -/
theorem tick_causeIV (c : Config) (ext : BitVec 5) (b : Cp0) : causeIV (tick c ext b).cause = causeIV b.cause := by
  have hlines : causeIV (setCauseLines b.cause ext) = causeIV b.cause := by
    rw [causeIV, setCauseLines, getLsbD_insertField _ _ _ _ (by decide), if_neg (by decide), causeIV]
  rw [tick_cause]
  split
  · rw [causeIV, setCauseTimer, getLsbD_insertBit _ _ _ _ (by decide), if_neg (by decide)]
    exact hlines
  · exact hlines

/-- The interrupt PRE_INSN delivers is taken from normal level (42_exception_ops.md R131). -/
theorem takeException_int (pc : Word) (ds : Bool) (s : State) (h : s.cp0.status.getLsbD 1 = false) :
    takeException excInt 0 pc ds s =
      { s with
        trapPending := true
        trapTarget := if statusBEV s.cp0.status = true then 0xBFC00380#32
          else if causeIV s.cp0.cause = true then s.cp0.ebase + 0x200#32 else s.cp0.ebase + 0x180#32
        cp0 := { s.cp0 with
          epc := if ds then pc - 4 else pc
          status := s.cp0.status ||| 0x00000002#32
          cause := (s.cp0.cause &&& 0x7FFFFF83#32) ||| (if ds then 0x80000000#32 else 0#32) } } := by
  have hnormal : statusEXL s.cp0.status = false := h
  have hcode : ∀ w : Word, w ||| (excInt.setWidth 32 <<< 2) = w := fun _ => BitVec.or_zero
  have htarget := trapTarget_int s.cp0 hnormal
  rw [hnormal, if_neg Bool.false_ne_true] at htarget
  rw [takeException_of_normal _ _ _ _ _ h, htarget, hcode]
  rfl

/-! ## The privilege level (42_exception_ops.md R138) -/

theorem privLevel_eq_one_iff (status : Word) : privLevel status = 1#1 ↔
    status.getLsbD 1 = false ∧ status.getLsbD 2 = false ∧ status.extractLsb' 3 2 ≠ 0#2 := by
  have htwo : privLevel status = 1#1 ↔ ¬ privLevel status = 0#1 := by
    generalize privLevel status = p
    revert p
    decide
  rw [htwo, privLevel_eq_zero_iff]
  simp only [not_or, Bool.not_eq_true, ne_eq]

/-- An exception leads to kernel mode. -/
theorem takeException_privLevel (exc : BitVec 5) (badva pc : Word) (ds : Bool) (s : State) :
    privLevel (takeException exc badva pc ds s).cp0.status = 0#1 := by
  rw [privLevel_eq_zero_iff, takeException_status, getLsbD_setEXL]
  exact .inl rfl

/-- Only ERET and a CSR_WRITE of `Status` can raise the level from kernel to user. -/
theorem BankStep.enters_user {s : State} {i : Instr} {b : Cp0} (h : BankStep s i b)
    (hkernel : privLevel s.cp0.status = 0#1) (huser : privLevel b.status = 1#1) :
    i = .eret ∨ ∃ v, i = .csrWriteStatus v := by
  have not_kernel : privLevel b.status ≠ 0#1 := by
    rw [huser]
    decide
  cases h with
  | kept => exact absurd hkernel not_kernel
  | write r v =>
    by_cases hr : r = .status
    · subst hr
      exact .inr ⟨v, rfl⟩
    · have hstatus : (writtenBank s.cfg s.cp0 v r).status = s.cp0.status :=
        getCsr_writtenBank_of_ne s.cfg s.cp0 v r .status (Ne.symm hr) (by decide) (by decide)
      exact absurd (hstatus ▸ hkernel) not_kernel
  | tick ext pc ds => exact absurd hkernel not_kernel
  | interrupt ext pc ds => exact absurd (takeException_privLevel excInt 0 pc ds _) not_kernel
  | raise exc badva pc ds => exact absurd (takeException_privLevel exc badva pc ds s) not_kernel
  | eret => exact .inl rfl

/-! ## The obligations -/

/-- Settles O30: with no interrupt deliverable only `tick` and the cleared `trap_pending` are left of the command. -/
theorem preInsnCountsAndLatches : Obligations.PreInsnCountsAndLatches := by
  intro ext pc ds s latched cause deliverable random hmasked
  have hcause : (tick s.cfg ext s.cp0).cause = cause := tick_cause_eq s.cfg ext s.cp0
  have hnot : ¬ intDeliverable s.cp0.status (tick s.cfg ext s.cp0).cause = true := by
    rw [hcause, intDeliverable_iff]
    exact hmasked
  refine ⟨undriven s.fresh, s.fresh + 1, ?_, rfl, rfl⟩
  rw [exec_preInsn, if_neg hnot, tick_bank]
  rfl

/-- Settles O31: the trap is taken on the bank that counting and latching leave. -/
theorem preInsnDeliversInterrupt : Obligations.PreInsnDeliversInterrupt := by
  intro ext pc ds s latched cause deliverable random hd
  let t := retire { s with trapPending := false, cp0 := tick s.cfg ext s.cp0 }
  have hcause : t.cp0.cause = cause := tick_cause_eq s.cfg ext s.cp0
  have hiv : causeIV t.cp0.cause = causeIV s.cp0.cause := tick_causeIV s.cfg ext s.cp0
  have hdeliver : intDeliverable s.cp0.status t.cp0.cause = true := by
    rw [hcause, intDeliverable_iff]
    exact hd
  obtain ⟨-, hnormal, -, -⟩ := hd
  have htrap := takeException_int pc ds t hnormal
  rw [hiv, hcause] at htrap
  refine ⟨undriven s.fresh, s.fresh + 1, ?_, rfl, rfl⟩
  exact (exec_preInsn ext pc ds s).trans (congrArg _ ((if_pos hdeliver).trans htrap))

/-- Settles O32: the advance after the one that reaches `Wired` goes back to the top. -/
theorem randomCountsDownToWiredAndReturns : Obligations.RandomCountsDownToWiredAndReturns := by
  intro c w hc hw
  obtain ⟨hpos, hle⟩ := mipsTlbEntries_bounds_of_wellFormed c hc
  have countsDown := randomNext_iterate c w (c.mipsTlbEntries - 1) (by omega)
  refine ⟨fun k hk => countsDown k (by omega), ?_, fun ext pc ds s => ⟨_, exec_preInsn ext pc ds s, ?_⟩⟩
  · have hlast : c.mipsTlbEntries - w.toNat = c.mipsTlbEntries - 1 - w.toNat + 1 := by omega
    have hwired : BitVec.ofNat 32 (c.mipsTlbEntries - 1 - (c.mipsTlbEntries - 1 - w.toNat)) = w := by bv_omega
    rw [hlast, Function.iterate_succ_apply', countsDown _ (by omega), hwired]
    exact randomNext_self c w
  · split
    · rw [takeException_bank]
      exact ⟨rfl, rfl⟩
    · exact ⟨rfl, rfl⟩

/-- Settles O33. -/
theorem raiseEntersExceptionLevel : Obligations.RaiseEntersExceptionLevel := by
  intro exc badva pc ds s hnormal
  refine ⟨undriven s.fresh, s.fresh + 1, ?_, rfl, rfl⟩
  rw [exec_raise, takeException_of_normal exc badva pc ds (retire s) hnormal, trapBase_eq, trapOffset_eq]
  rfl

/-- Settles O34. -/
theorem raiseInExceptionLevelGoesGeneral : Obligations.RaiseInExceptionLevelGoesGeneral := by
  intro exc badva pc ds s hlevel
  refine ⟨undriven s.fresh, s.fresh + 1, ?_, rfl, rfl⟩
  rw [exec_raise, takeException_of_exceptionLevel exc badva pc ds (retire s) hlevel, trapBase_eq, setCauseExcCode_eq]
  rfl

/-- Settles O35: the first RAISE leaves `EXL` at 1, so the second is taken in exception level. -/
theorem secondTrapKeepsFirstReturn : Obligations.SecondTrapKeepsFirstReturn := by
  intro exc1 exc badva1 badva pc1 pc ds1 ds s
  let s1 := takeException exc1 badva1 pc1 ds1 (retire s)
  have hstatus : s1.cp0.status = s.cp0.status ||| 0x00000002#32 := takeException_status exc1 badva1 pc1 ds1 (retire s)
  have hebase : s1.cp0.ebase = s.cp0.ebase := takeException_frame exc1 badva1 pc1 ds1 (retire s) .ebase (by decide)
  have hlevel : s1.cp0.status.getLsbD 1 = true := by rw [hstatus, getLsbD_setEXL]; rfl
  have hbev : s1.cp0.status.getLsbD 22 = s.cp0.status.getLsbD 22 := by rw [hstatus, getLsbD_setEXL]; rfl
  have hbase : trapBase s1.cp0 = trapBase s.cp0 := by rw [trapBase_eq, trapBase_eq, hbev, hebase]
  refine ⟨s1, _, exec_raise exc1 badva1 pc1 ds1 s, exec_raise exc badva pc ds s1, ?_⟩
  rw [takeException_of_exceptionLevel exc badva pc ds (retire s1) hlevel]
  exact ⟨rfl, causeBD_setCauseExcCode s1.cp0.cause exc, causeExcCode_setCauseExcCode s1.cp0.cause exc, rfl,
    congrArg (· + offGeneral) hbase, rfl⟩

/-- Settles O36. -/
theorem eretReturnsAndClearsOneLevel : Obligations.EretReturnsAndClearsOneLevel := fun s =>
  ⟨fun herl => eret_completes s _ _ (returnFromException_of_errorLevel s.cp0 herl),
    fun herl => eret_completes s _ _ (returnFromException_of_noErrorLevel s.cp0 herl)⟩

/-- Settles O37: the trap leaves `ERL` at 0, so ERET returns `EPC` and clears the `EXL` that the trap set. -/
theorem eretAfterRaiseRestores : Obligations.EretAfterRaiseRestores := by
  intro exc badva pc ds s hexl herl
  let s1 := takeException exc badva pc ds (retire s)
  have hraise : exec (.raise exc badva pc ds) s = .next s1 := exec_raise exc badva pc ds s
  have hstatus : s1.cp0.status = s.cp0.status ||| 0x00000002#32 := takeException_status exc badva pc ds (retire s)
  have hepc : s1.cp0.epc = if ds then pc - 4 else pc :=
    (takeException_epc exc badva pc ds (retire s)).trans (if_neg (ne_true_of_eq_false hexl))
  have herl1 : s1.cp0.status.getLsbD 2 = false := (takeException_erl exc badva pc ds (retire s)).trans herl
  obtain ⟨o, n, heret, htarget, -⟩ := (eretReturnsAndClearsOneLevel s1).2 herl1
  have hrestored : s1.cp0.status &&& 0xFFFFFFFD#32 = s.cp0.status := by
    rw [hstatus, clearEXL_setEXL _ hexl]
  exact ⟨s1, _, hraise, heret, htarget.trans hepc, hrestored, takeException_privLevel exc badva pc ds (retire s),
    congrArg privLevel hrestored⟩

/-- Settles O38. -/
theorem privShowsPrivilegeLevel : Obligations.PrivShowsPrivilegeLevel := by
  intro s
  refine ⟨⟨_, _, exec_priv s, rfl, rfl⟩, ?_⟩
  split
  · exact (privLevel_eq_zero_iff s.cp0.status).mpr ‹_›
  · rename_i huser
    rw [not_or, not_or, Bool.not_eq_true, Bool.not_eq_true] at huser
    exact (privLevel_eq_one_iff s.cp0.status).mpr huser

/-- Settles O40, by what each command can do to the bank; a trap sets `EXL`. -/
theorem userModeEnteredOnlyByEretOrStatusWrite : Obligations.UserModeEnteredOnlyByEretOrStatusWrite := by
  constructor
  · intro i s t h hkernel huser
    exact ⟨(exec_bankStep i s t h).enters_user hkernel huser, (privLevel_eq_one_iff t.cp0.status).mp huser⟩
  · intro exc badva pc ds s
    exact ⟨_, exec_raise exc badva pc ds s, takeException_privLevel exc badva pc ds (retire s)⟩

end Sys2Proof.Machine

/-! PROOFS of the family 43_tlb_walker. First the tests on one entry and what INVALIDATE does to it, then the walk that finds
no leaf; then the obligations. -/

/-! ## The tests on one entry (43_tlb_walker.md R150 to R152) -/

namespace Sys2Proof.Machine

theorem pageBase_kb4 (va : DWord) : pageBase .kb4 va = va &&& 0xFFFFFFFFFFFFF000#64 := rfl

theorem pageBase_mb2 (va : DWord) : pageBase .mb2 va = va &&& 0xFFFFFFFFFFE00000#64 := rfl

theorem pageBase_gb1 (va : DWord) : pageBase .gb1 va = va &&& 0xFFFFFFFFC0000000#64 := rfl

theorem covers_iff (e : TlbEntry) (va : DWord) :
    covers e va = true ↔ e.pagesize ≠ .invalid ∧ pageBase e.pagesize va = e.vpa := by
  simp [covers]

theorem entryMatches_iff (e : TlbEntry) (va : DWord) (asid : Asid) :
    entryMatches e va asid = true ↔ covers e va = true ∧ (e.asid = asid ∨ e.g = true) := by
  simp [entryMatches]

theorem selectedBy_iff (va : DWord) (asid : Asid) (e : TlbEntry) : selectedBy va asid e = true ↔
    e.pagesize ≠ .invalid ∧ (asid = 0 ∨ e.asid = asid ∨ e.g = true) ∧ (va = 0 ∨ covers e va = true) := by
  simp [selectedBy, and_assoc, or_assoc]

/-- One entry after INVALIDATE, with the selection written out (43_tlb_walker.md R152). -/
theorem invalidateEntry_eq (va : DWord) (asid : Asid) (e : TlbEntry) : invalidateEntry va asid e =
    if e.pagesize ≠ .invalid ∧ (asid = 0 ∨ e.asid = asid ∨ e.g = true) ∧ (va = 0 ∨ covers e va = true)
    then { e with pagesize := .invalid } else e :=
  if_congr (selectedBy_iff va asid e) rfl rfl

/-! ## A walk that runs out of levels (43_tlb_walker.md R155) -/

/-- A walk that meets a pointer at each of its three levels reads the three entries and finds no leaf. -/
theorem walk_threePointers (c : Config) (m : Memory) (desc va p2 p1 p0 : DWord) (hc : c.sv39Ppn2Bits ≤ 26)
    (h2 : pteAt m (entryAddr (desc.extractLsb' 0 44).toNat (va.toNat / 2 ^ 30 % 512)) p2) (hp2 : isPointer c p2)
    (h1 : pteAt m (entryAddr (frameOf c p2) (va.toNat / 2 ^ 21 % 512)) p1) (hp1 : isPointer c p1)
    (h0 : pteAt m (entryAddr (frameOf c p1) (va.toNat / 2 ^ 12 % 512)) p0) (hp0 : isPointer c p0) :
    walk c m (descPpn desc) va =
      { reads := [entryAddr (desc.extractLsb' 0 44).toNat (va.toNat / 2 ^ 30 % 512),
          entryAddr (frameOf c p2) (va.toNat / 2 ^ 21 % 512), entryAddr (frameOf c p1) (va.toNat / 2 ^ 12 % 512)]
        ending := .fault .noLeaf } := by
  rw [← pteAddr_root] at h2 ⊢
  rw [← pteAddr_level1 c p2 va hc] at h1 ⊢
  rw [← pteAddr_level0 c p1 va hc] at h0 ⊢
  rw [walk, walkLevels_pointer c m va p2 .level2 _ _ h2 hp2, walkLevels_pointer c m va p1 .level1 _ _ h1 hp1,
    walkLevels_pointer c m va p0 .level0 _ _ h0 hp0]
  rfl

/-! ## The obligations -/

/-- Settles O55: after a pointer at the last level no level is left to visit. -/
theorem pointerAtLastLevelFaults : Obligations.PointerAtLastLevelFaults := by
  intro desc va p2 p1 p0 s a2 a1 a0 hc hmiss h2 hp2 h1 hp1 h0 hp0
  have hw := walk_threePointers s.cfg s.mem desc va p2 p1 p0 (ppn2Bits_le_of_wellFormed _ hc) h2 hp2 h1 hp1 h0 hp0
  exact resolve_walkFault desc va s _ .noLeaf hmiss hw

/-- Settles O45, by the size of the entry: each size has its own mask, and an invalid entry covers nothing. -/
theorem entryMatchRule : Obligations.EntryMatchRule := by
  intro e va asid
  refine ⟨?_, entryMatches_iff e va asid⟩
  rw [covers_iff]
  cases e.pagesize with
  | invalid => simp
  | kb4 => simp [pageBase_kb4]
  | mb2 => simp [pageBase_mb2]
  | gb1 => simp [pageBase_gb1]

/-- Settles O46: the rule for one entry, at every slot. -/
theorem invalidateClearsSelectedEntries : Obligations.InvalidateClearsSelectedEntries := by
  intro va asid s
  have hexec := exec_invalidate va asid s
  rw [funext (invalidateEntry_eq va asid)] at hexec
  exact ⟨_, _, hexec, rfl, rfl⟩

end Sys2Proof.Machine
